-- ==== Sys2Proof/Word.lean ====
section
/-! DEFINITION. The two bit-vector types of the ESCP: a bus byte and a host-register word (10_state.md R21, 20_memory.md R62). -/

namespace Sys2Proof

/-- One byte of the bus port (20_memory.md R62: `u8`). -/
abbrev Byte := BitVec 8

/-- One host register, a command word or a binary64 bit pattern (10_state.md R21, 20_memory.md R74). -/
abbrev Word := BitVec 64

end Sys2Proof
end

