-- ==== Sys2Proof/Syntax.lean ====
section
/-! DEFINITION. The ten commands of the opcode map (30_encoding.md R91). -/

namespace Sys2Proof

/-- One constructor per row of the opcode table. A command word has no operand field but SRC, and SRC is
part of the command's identity (30_encoding.md R91, R92, R95), so no constructor has an argument. -/
inductive Instr where
  | nop         -- 0x00          NOP
  | climInit    -- 0x01          CLIM.INIT
  | climSample  -- 0x02          CLIM.SAMPLE
  | gasInit     -- 0x10          GAS.INIT
  | gasReady    -- 0x11          GAS.READY
  | gasComp     -- 0x12, SRC 0   GAS.COMP
  | gasCompOpnd -- 0x12, SRC 1   GAS.COMP.OPND
  | gasCompClim -- 0x12, SRC 2   GAS.COMP.CLIM
  | gasUpdate   -- 0x13          GAS.UPDATE
  | gasSample   -- 0x14          GAS.SAMPLE
deriving DecidableEq, Repr

end Sys2Proof
end

