-- ==== Sys2Proof/WellFormed.lean ====
section
/-! DEFINITION. The fields of a command word and the checks a legal word meets (30_encoding.md R90, R92, R94). -/

namespace Sys2Proof

/-- The three fields of a command word (30_encoding.md R90). -/
structure CommandWord where
  opc  : BitVec 8
  src  : BitVec 2
  rsvd : BitVec 54
deriving DecidableEq, Repr

/-- "[63:10] RSVD reserved, must be 0" (30_encoding.md R90). -/
def CommandWord.reservedClear (c : CommandWord) : Bool := c.rsvd == 0

/-- OPC is one of the values of the opcode map (30_encoding.md R91). -/
def CommandWord.opcodeAssigned (c : CommandWord) : Bool :=
  [0x00, 0x01, 0x02, 0x10, 0x11, 0x12, 0x13, 0x14].contains c.opc.toNat

/-- SRC is 0 for every opcode but 0x12, where it is not 3 (30_encoding.md R90, R92). -/
def CommandWord.sourceLegal (c : CommandWord) : Bool :=
  if c.opc = 0x12 then c.src != 3 else c.src == 0

/-- A legal command word. -/
def CommandWord.wf (c : CommandWord) : Bool :=
  c.reservedClear && c.opcodeAssigned && c.sourceLegal

end Sys2Proof
end

