-- ==== Sys2Proof/Decode.lean ====
section
/-! DEFINITION. Decoding, total on every 64-bit word and rejecting by name (30_encoding.md R93, R94), and the
encoder written from the opcode map (30_encoding.md R91, R110). -/

namespace Sys2Proof

/-- Why a word decodes to ILLEGAL (30_encoding.md R93, R94; 93_implementation_defined.md U16). -/
inductive DecodeReject where
  /-- a bit of [63:10] is set -/
  | reservedBits
  /-- OPC 0x12 with SRC = 3 -/
  | reservedSource
  /-- SRC is not 0 and OPC is not 0x12 -/
  | unexpectedSource
  /-- OPC is not in the opcode map -/
  | unassignedOpcode
deriving DecidableEq, Repr

/-- The fields of a word: OPC [7:0], SRC [9:8], RSVD [63:10] (30_encoding.md R90). -/
def CommandWord.ofWord (w : Word) : CommandWord :=
  { opc := w.extractLsb' 0 8, src := w.extractLsb' 8 2, rsvd := w.extractLsb' 10 54 }

/-- The word with the given fields (30_encoding.md R90). -/
def CommandWord.toWord (c : CommandWord) : Word := c.rsvd ++ c.src ++ c.opc

/-- `decode` of 30_encoding.md R93 on the fields, its tests in the rule's order. -/
def CommandWord.decode (c : CommandWord) : Except DecodeReject Instr :=
  if c.rsvd ≠ 0 then .error .reservedBits
  else if c.opc = 0x12 then
    if c.src = 0 then .ok .gasComp
    else if c.src = 1 then .ok .gasCompOpnd
    else if c.src = 2 then .ok .gasCompClim
    else .error .reservedSource
  else if c.src ≠ 0 then .error .unexpectedSource
  else if c.opc = 0x00 then .ok .nop
  else if c.opc = 0x01 then .ok .climInit
  else if c.opc = 0x02 then .ok .climSample
  else if c.opc = 0x10 then .ok .gasInit
  else if c.opc = 0x11 then .ok .gasReady
  else if c.opc = 0x13 then .ok .gasUpdate
  else if c.opc = 0x14 then .ok .gasSample
  else .error .unassignedOpcode

/-- `decode(w)`, a total function of the 64-bit word (30_encoding.md R93); `.error` is ILLEGAL. -/
def decode (w : Word) : Except DecodeReject Instr := (CommandWord.ofWord w).decode

/-- The OPC and SRC of each command (30_encoding.md R91). -/
def Instr.fields : Instr → CommandWord
  | .nop         => { opc := 0x00, src := 0, rsvd := 0 }
  | .climInit    => { opc := 0x01, src := 0, rsvd := 0 }
  | .climSample  => { opc := 0x02, src := 0, rsvd := 0 }
  | .gasInit     => { opc := 0x10, src := 0, rsvd := 0 }
  | .gasReady    => { opc := 0x11, src := 0, rsvd := 0 }
  | .gasComp     => { opc := 0x12, src := 0, rsvd := 0 }
  | .gasCompOpnd => { opc := 0x12, src := 1, rsvd := 0 }
  | .gasCompClim => { opc := 0x12, src := 2, rsvd := 0 }
  | .gasUpdate   => { opc := 0x13, src := 0, rsvd := 0 }
  | .gasSample   => { opc := 0x14, src := 0, rsvd := 0 }

/-- The command word of a command (30_encoding.md R91, R110). -/
def encode (i : Instr) : Word := i.fields.toWord

/-- The command that a word of `nbits` bits stands for. A command word is one whole 64-bit register
(20_memory.md R75: no byte order), so the bits above `nbits` are 0 and `w` is the word itself. -/
def decodeTableWord (nbits w : Nat) : Option Instr :=
  match decode (BitVec.ofNat 64 (w % 2 ^ nbits)) with
  | .ok i => some i
  | .error _ => none

end Sys2Proof
end

