-- ==== Sys2Proof/Config.lean ====
section
/-! DEFINITION. What is fixed for a run (00_scope.md R8), and the free values: the transport's responses
(20_memory.md R66), the bit pattern of a NaN result, and a COMP that is not the default. -/

namespace Sys2Proof

/-- NARROW_SEXT (00_scope.md R8, 40_datapath.md R132; left OPEN by 92_eei_decisions.md D11). -/
inductive NarrowSext where
  | fieldWidth
  | rule16
deriving DecidableEq, Repr

/-- ROUND_TIES (00_scope.md R8, 40_datapath.md R155; left OPEN by 92_eei_decisions.md D25). -/
inductive RoundTies where
  | even
  | away
deriving DecidableEq, Repr

namespace Machine

/-- CAL_T1..CAL_T3, each a 64-bit two's-complement integer (10_state.md R32). -/
structure TempCoeffs where
  t1 : Word
  t2 : Word
  t3 : Word
deriving DecidableEq, Repr

/-- CAL_P1..CAL_P9 (10_state.md R32). -/
structure PressCoeffs where
  p1 : Word
  p2 : Word
  p3 : Word
  p4 : Word
  p5 : Word
  p6 : Word
  p7 : Word
  p8 : Word
  p9 : Word
deriving DecidableEq, Repr

/-- CAL_H1..CAL_H6 (10_state.md R32). -/
structure HumCoeffs where
  h1 : Word
  h2 : Word
  h3 : Word
  h4 : Word
  h5 : Word
  h6 : Word
deriving DecidableEq, Repr

/-- Which event humidity compensation raises, at most one (41_compensation.md R179, 60_exceptions.md R306). -/
inductive HumEvent where
  | none
  | divGuard
  | clampHi
  | clampLo
deriving DecidableEq, Repr, Inhabited

/-- COMP (00_scope.md R8, 41_compensation.md R172): `temperature` (compT) gives (fine, temperature_C), `pressure`
(compP) pascals or `none` for GUARD, `humidity` (compH) humidity_pct and its event; values are binary64 bit patterns. Not a
field of State, which names it by `CompChoice`: log 3. -/
structure Comp where
  temperature : BitVec 20 → TempCoeffs → Word × Word
  pressure    : BitVec 20 → Word → PressCoeffs → Option Word
  humidity    : BitVec 16 → Word → HumCoeffs → Word × HumEvent
deriving Inhabited

/-- Which COMP a run has (00_scope.md R8; 41_compensation.md R172): the spec's default bodies, or one of the others, which
the spec does not describe and `Config.otherComp` leaves free (93_implementation_defined.md U12). Log 3. -/
inductive CompChoice where
  | default
  | other (k : Nat)
deriving DecidableEq, Repr

end Machine

/-- The parameters fixed for a run (10_state.md R44). They stand in State, which no step changes there, so that a statement
about every state holds for every value of each. DESIGN CHOICE, safe: log 2, log 3. -/
structure Params where
  narrowSext : NarrowSext
  roundTies  : RoundTies
  comp       : Machine.CompChoice
deriving DecidableEq, Repr

/-- The defaults of 00_scope.md R8. -/
def Params.default : Params := { narrowSext := .fieldWidth, roundTies := .even, comp := .default }

/-- What the transport answers to a transaction (20_memory.md R66). -/
inductive BusResponse where
  | ok (bytes : List Byte)
  | fail
deriving DecidableEq, Repr, Inhabited

/-- The three rounding operations of a `float` block (00_scope.md R12); a difference is the sum with the
negated operand. -/
inductive FloatOp where
  | add
  | mul
  | div
deriving DecidableEq, Repr

/-- FREE VALUE (log 4): the transport's response number `n`, under no law (20_memory.md R66,
93_implementation_defined.md U1). -/
opaque Config.busDraw (n : Nat) : BusResponse

/-- FREE VALUE (log 10): sign and fraction of the NaN that an operation gives on two bit patterns, where IEEE 754
says only that the result is a NaN (41_compensation.md R170). -/
opaque Config.nanBits (op : FloatOp) (x y : Word) : BitVec 53

/-- FREE VALUE (log 3): the three functions of a COMP other than the default, under no law
(93_implementation_defined.md U12, U14). -/
opaque Config.otherComp (k : Nat) : Machine.Comp

/-- CLIMATE_ADDR_RESET (00_scope.md R8). -/
def Config.climateAddrReset : Byte := 0x77

/-- GAS_ADDR_RESET (00_scope.md R8). -/
def Config.gasAddrReset : Byte := 0x5B

end Sys2Proof
end

