-- ==== Sys2Proof/Machine/Float.lean ====
section
/-! DEFINITION. IEEE 754 binary64 as the `float` blocks use it (00_scope.md R12, 41_compensation.md R170): every
operation computes exactly on integers and rounds once, to nearest with ties to even; subnormals are kept, NaN and
infinity propagate, no flag is kept. -/

namespace Sys2Proof.Machine

/-- A binary64 value. `fin neg m e` is (-1)^neg * m * 2^e; the operations give it with `e = -1074` and `m < 2^52`
(zero and subnormal) or `-1074 <= e <= 971` and `2^52 <= m < 2^53` (normal). -/
inductive Fl where
  | nan (neg : Bool) (frac : BitVec 52)
  | inf (neg : Bool)
  | fin (neg : Bool) (m : Nat) (e : Int)
deriving DecidableEq, Repr

/-- The sign bit of a bit pattern from a Bool. -/
def Fl.signBit (neg : Bool) : BitVec 1 := BitVec.ofBool neg

/-- The value of a bit pattern: sign at 63, exponent at [62:52], fraction at [51:0] (20_memory.md R74). -/
def Fl.ofBits (w : Word) : Fl :=
  let neg := w.msb
  let ex := (w.extractLsb' 52 11).toNat
  let fr := w.extractLsb' 0 52
  if ex = 0 then .fin neg fr.toNat (-1074)
  else if ex = 2047 then (if fr = 0 then .inf neg else .nan neg fr)
  else .fin neg (2 ^ 52 + fr.toNat) ((ex : Int) - 1075)

/-- The bit pattern of a value (20_memory.md R74). -/
def Fl.toBits : Fl → Word
  | .nan neg fr => Fl.signBit neg ++ (BitVec.allOnes 11) ++ fr
  | .inf neg => Fl.signBit neg ++ (BitVec.allOnes 11) ++ (0 : BitVec 52)
  | .fin neg m e =>
    if m < 2 ^ 52 then Fl.signBit neg ++ (0 : BitVec 11) ++ BitVec.ofNat 52 m
    else Fl.signBit neg ++ BitVec.ofNat 11 (e + 1075).toNat ++ BitVec.ofNat 52 (m - 2 ^ 52)

/-- The NaN an invalid operation, or one with a NaN operand, gives: any NaN (log 10). A free fraction of 0, which
would not be a NaN's, stands for the one with only the top bit set. -/
def Fl.nanOf (op : FloatOp) (x y : Fl) : Fl :=
  let b := Config.nanBits op x.toBits y.toBits
  let fr := b.extractLsb' 0 52
  .nan b.msb (if fr = 0 then BitVec.twoPow 52 51 else fr)

/-- The number of bits of `m`. -/
def Fl.bitLength (m : Nat) : Nat := if m = 0 then 0 else Nat.log2 m + 1

/-- `m / 2^d` rounded to the nearest integer, a tie to the even one. -/
def Fl.shiftEven (m d : Nat) : Nat :=
  let k := m / 2 ^ d
  let r := m % 2 ^ d
  if 2 ^ d < 2 * r ∨ (2 * r = 2 ^ d ∧ k % 2 = 1) then k + 1 else k

/-- `m / 2^d` rounded to the nearest integer, a tie to the larger one. -/
def Fl.shiftAway (m d : Nat) : Nat :=
  let k := m / 2 ^ d
  let r := m % 2 ^ d
  if 2 ^ d ≤ 2 * r then k + 1 else k

/-- The zero of the given sign. -/
def Fl.zero (neg : Bool) : Fl := .fin neg 0 (-1074)

/-- A significand of at most `2^53` at exponent `q`, where `2^53` carries into the next exponent and an exponent past
the largest overflows to infinity. -/
def Fl.pack (neg : Bool) (k : Nat) (q : Int) : Fl :=
  if k = 2 ^ 53 then (if 971 < q + 1 then .inf neg else .fin neg (2 ^ 52) (q + 1))
  else if 971 < q then .inf neg else .fin neg k q

/-- The exponent of the binary64 grid that a number of `m` bits at exponent `e` is rounded on. -/
def Fl.gridExp (m : Nat) (e : Int) : Int := max ((Fl.bitLength m : Int) + e - 53) (-1074)

/-- (-1)^neg * m * 2^e rounded to binary64, to nearest with ties to even (00_scope.md R12). -/
def Fl.round (neg : Bool) (m : Nat) (e : Int) : Fl :=
  if m = 0 then Fl.zero neg
  else
    let q := Fl.gridExp m e
    if q ≤ e then Fl.pack neg (m * 2 ^ (e - q).toNat) q
    else Fl.pack neg (Fl.shiftEven m (q - e).toNat) q

/-- `f64(n)` (00_scope.md R12): exact for every integer below 2^53; log 11. -/
def Fl.ofInt (n : Int) : Fl := Fl.round (decide (n < 0)) n.natAbs 0

/-- The integer (-1)^neg * m * 2^(e - q), for `q <= e`. -/
def Fl.scaled (neg : Bool) (m : Nat) (e q : Int) : Int :=
  (if neg then -1 else 1) * ((m * 2 ^ (e - q).toNat : Nat) : Int)

/-- The value with the other sign. -/
def Fl.neg : Fl → Fl
  | .nan s fr => .nan (!s) fr
  | .inf s => .inf (!s)
  | .fin s m e => .fin (!s) m e

/-- The exact sum, rounded once. An exact zero sum is +0.0 unless both operands are negative. -/
def Fl.add (x y : Fl) : Fl :=
  match x, y with
  | .fin a m e, .fin b n f =>
    let q := min e f
    let s := Fl.scaled a m e q + Fl.scaled b n f q
    if s = 0 then Fl.zero (a && b) else Fl.round (decide (s < 0)) s.natAbs q
  | .inf a, .fin _ _ _ => .inf a
  | .fin _ _ _, .inf b => .inf b
  | .inf a, .inf b => if a = b then .inf a else Fl.nanOf .add x y
  | .nan _ _, _ => Fl.nanOf .add x y
  | _, .nan _ _ => Fl.nanOf .add x y

/-- The exact difference, rounded once. -/
def Fl.sub (x y : Fl) : Fl := x.add y.neg

/-- The exact product, rounded once. -/
def Fl.mul (x y : Fl) : Fl :=
  match x, y with
  | .fin a m e, .fin b n f => Fl.round (a != b) (m * n) (e + f)
  | .inf a, .fin b n _ => if n = 0 then Fl.nanOf .mul x y else .inf (a != b)
  | .fin a m _, .inf b => if m = 0 then Fl.nanOf .mul x y else .inf (a != b)
  | .inf a, .inf b => .inf (a != b)
  | .nan _ _, _ => Fl.nanOf .mul x y
  | _, .nan _ _ => Fl.nanOf .mul x y

/-- (-1)^neg * (m * 2^e) / (n * 2^f) rounded once, for `n > 0`: a quotient of at least 55 bits with the remainder's
being nonzero as one more low bit rounds as the exact quotient does. -/
def Fl.quotient (neg : Bool) (m : Nat) (e : Int) (n : Nat) (f : Int) : Fl :=
  let k := 55 + Fl.bitLength n
  let t := m * 2 ^ k
  Fl.round neg (2 * (t / n) + (if t % n = 0 then 0 else 1)) (e - f - (k : Int) - 1)

/-- The exact quotient, rounded once; a nonzero finite number over zero is an infinity. -/
def Fl.div (x y : Fl) : Fl :=
  match x, y with
  | .fin a m e, .fin b n f =>
    if n = 0 then (if m = 0 then Fl.nanOf .div x y else .inf (a != b))
    else Fl.quotient (a != b) m e n f
  | .inf a, .fin b _ _ => .inf (a != b)
  | .fin a _ _, .inf b => Fl.zero (a != b)
  | .inf _, .inf _ => Fl.nanOf .div x y
  | .nan _ _, _ => Fl.nanOf .div x y
  | _, .nan _ _ => Fl.nanOf .div x y

/-- `x < y`, false where an operand is a NaN; -0.0 and +0.0 are equal (00_scope.md R12). -/
def Fl.lt : Fl → Fl → Bool
  | .fin a m e, .fin b n f =>
    let q := min e f
    decide (Fl.scaled a m e q < Fl.scaled b n f q)
  | .inf a, .fin _ _ _ => a
  | .fin _ _ _, .inf b => !b
  | .inf a, .inf b => a && !b
  | .nan _ _, _ => false
  | _, .nan _ _ => false

/-- `x == 0.0`, true for both zeros (00_scope.md R12). -/
def Fl.isZero : Fl → Bool
  | .fin _ m _ => m == 0
  | .inf _ => false
  | .nan _ _ => false

/-- `roundInt(x)` of a finite value under ROUND_TIES (40_datapath.md R155); `none` for a NaN or an infinity. -/
def Fl.roundInt (ties : RoundTies) : Fl → Option Int
  | .fin neg m e =>
    let mag : Nat :=
      if 0 ≤ e then m * 2 ^ e.toNat
      else
        match ties with
        | .even => Fl.shiftEven m (-e).toNat
        | .away => Fl.shiftAway m (-e).toNat
    some (if neg then -(mag : Int) else (mag : Int))
  | .inf _ => none
  | .nan _ _ => none

end Sys2Proof.Machine
end

