-- ==== Sys2Proof/Machine/State.lean ====
section
/-! DEFINITION. The ESCP's state as plain data (10_state.md R20, R21, R40), the environment's pending inputs and
recorded outputs, the reasons a step could stop, and the state after reset (10_state.md R42, 70_reset_and_hazards.md R340). -/

namespace Sys2Proof.Machine

/-- The four transactions of the bus-master port (20_memory.md R62 to R65): device, register, and what is moved. A block's
length is 8 bits wide (BUS_LEN_WIDTH, 00_scope.md R8). -/
inductive Transaction where
  | rdByte  (dev reg : Byte)
  | rdBlock (dev reg : Byte) (n : BitVec 8)
  | wrByte  (dev reg v : Byte)
  | wrBlock (dev reg : Byte) (n : BitVec 8) (bytes : Vector Byte n.toNat)
deriving DecidableEq, Repr

/-- One transaction the port issued, with its response; `none` where a reset came before the response, which is
then discarded (70_reset_and_hazards.md R343, R360). -/
structure BusRecord where
  txn  : Transaction
  resp : Option BusResponse
deriving DecidableEq, Repr

/-- Who moves next (44_host_access.md R270; 93_implementation_defined.md U23), log 6. -/
inductive Turn where
  /-- the host reads register `i` (44_host_access.md R271) -/
  | rd (i : BitVec 6)
  /-- the host writes `v` to register `i` (44_host_access.md R272 to R277) -/
  | wr (i : BitVec 6) (v : Word)
  /-- the host polls STATUS until BUSY = 0 (30_encoding.md R111), log 9 -/
  | wait
  /-- the reset input; `inFlight` says whether the running command's next transaction was already on the port
  (70_reset_and_hazards.md R340, R343), log 8 -/
  | reset (inFlight : Bool)
  /-- the sequencer makes one step -/
  | sequencer
deriving DecidableEq, Repr

/-- STATUS.ERR, the codes 0 to 5 of 60_exceptions.md R301 (6 to 15 are never produced). -/
inductive ErrCode where
  | ok
  | illegal
  | notInit
  | transport
  | envRange
  | noClimate
deriving DecidableEq, Repr

/-- GAS_ST (10_state.md R35). -/
inductive GasState where
  | uninit
  | booted
  | dataNotReady
  | dataReady
deriving DecidableEq, Repr

/-- The sequencer's phase (10_state.md R40). -/
inductive Phase where
  | idle
  | run
deriving DecidableEq, Repr

/-- CONFIG, or the copy latched at issue (10_state.md R25, R40). -/
structure BusConfig where
  climateAddr : Byte
  gasAddr     : Byte
deriving DecidableEq, Repr

/-- The CalibrationSet (10_state.md R32). -/
structure CalibrationSet where
  temp  : TempCoeffs
  press : PressCoeffs
  hum   : HumCoeffs
deriving DecidableEq, Repr

/-- The RawSample (00_scope.md R15, 10_state.md R30). -/
structure RawSample where
  adcP : BitVec 20
  adcT : BitVec 20
  adcH : BitVec 16
deriving DecidableEq, Repr

/-- The climate unit's registers (10_state.md R27, R30, R32) and STATUS bits (R23). -/
structure ClimateUnit where
  cal      : CalibrationSet
  calValid : Bool
  tempC    : Word
  pressHpa : Word
  humPct   : Word
  fine     : Word
  raw      : RawSample
  pValid   : Bool
  thValid  : Bool
deriving DecidableEq, Repr

/-- The gas unit's registers (10_state.md R28, R29, R31) and STATUS fields (R23, R35, R36). -/
structure GasUnit where
  st        : GasState
  ready     : Bool
  drive     : BitVec 3
  eco2      : BitVec 16
  tvoc      : BitVec 16
  eco2Valid : Bool
  tvocValid : Bool
  humWord   : BitVec 16
  tempWord  : BitVec 16
  result    : Word
deriving DecidableEq, Repr

/-- The sequencer's hidden state (10_state.md R40). -/
structure Sequencer where
  phase : Phase
  cmd   : Word
  cfg   : BusConfig
  envH  : Word
  envT  : Word
  step  : Nat
  buf   : List Byte
deriving DecidableEq, Repr

/-- What the model holds of the ESCP's surroundings: the pending turns (log 6), the transport's coming responses and
the counter of responses given (log 4), and what the two ports showed, oldest first (70_reset_and_hazards.md R360, log 15). -/
structure Environment where
  turns   : List Turn
  answers : List BusResponse
  draws   : Nat
  busLog  : List BusRecord
  readLog : List (BitVec 6 × Word)
deriving DecidableEq, Repr

/-- The machine: the host-interface registers (10_state.md R22 to R26), the two units, the sequencer, the parameters
fixed for the run (log 2) and the surroundings. STATUS is a view of its fields (Machine/Flags.lean), and BUSY is the
sequencer's phase (10_state.md R40). -/
structure State where
  cmd     : Word
  done    : Bool
  err     : ErrCode
  events  : BitVec 11
  config  : BusConfig
  envHIn  : Word
  envTIn  : Word
  climate : ClimateUnit
  gas     : GasUnit
  seq     : Sequencer
  params  : Params
  env     : Environment
deriving DecidableEq, Repr

/-- No constructor: "every error code … is a normal, final completion of a command, not a fault of the machine" and "no
command is stuck" (60_exceptions.md R319), log 20. -/
inductive Fault where
deriving DecidableEq, Repr

/-- Why an instruction has no meaning here. -/
inductive Refusal where
  /-- raised by an arm of `exec` whose instruction has no meaning yet (safe: the run stops); no arm raises it -/
  | notModelled (mnemonic : String)
deriving DecidableEq, Repr

/-- The climate unit after reset: UNINIT, every register 0 (10_state.md R34, R42). -/
def ClimateUnit.reset : ClimateUnit :=
  { cal := { temp := { t1 := 0, t2 := 0, t3 := 0 }
             press := { p1 := 0, p2 := 0, p3 := 0, p4 := 0, p5 := 0, p6 := 0, p7 := 0, p8 := 0, p9 := 0 }
             hum := { h1 := 0, h2 := 0, h3 := 0, h4 := 0, h5 := 0, h6 := 0 } }
    calValid := false, tempC := 0, pressHpa := 0, humPct := 0, fine := 0
    raw := { adcP := 0, adcT := 0, adcH := 0 }, pValid := false, thValid := false }

/-- The gas unit after reset: UNINIT, every register 0 (10_state.md R35, R42). -/
def GasUnit.reset : GasUnit :=
  { st := .uninit, ready := false, drive := 0, eco2 := 0, tvoc := 0, eco2Valid := false, tvocValid := false
    humWord := 0, tempWord := 0, result := 0 }

/-- The sequencer after reset: IDLE; its other fields are unspecified and unread while IDLE (10_state.md R40).
DESIGN CHOICE, unsafe: zeros, log 1. -/
def Sequencer.reset : Sequencer :=
  { phase := .idle, cmd := 0, cfg := { climateAddr := 0, gasAddr := 0 }, envH := 0, envT := 0, step := 0, buf := [] }

/-- No pending turn, no scripted response, nothing recorded (log 4, log 6, log 14, log 15). -/
def Environment.quiet : Environment := { turns := [], answers := [], draws := 0, busLog := [], readLog := [] }

/-- The machine right after reset (10_state.md R42, 70_reset_and_hazards.md R340): CONFIG holds the default addresses,
ENV_H_IN 50.0 and ENV_T_IN 25.0, all else 0, phase IDLE; the parameters at the defaults of 00_scope.md R8. -/
def State.reset : State :=
  { cmd := 0, done := false, err := .ok, events := 0
    config := { climateAddr := Config.climateAddrReset, gasAddr := Config.gasAddrReset }
    envHIn := 0x4049000000000000, envTIn := 0x4039000000000000
    climate := ClimateUnit.reset, gas := GasUnit.reset, seq := Sequencer.reset
    params := Params.default, env := Environment.quiet }

end Sys2Proof.Machine
end

