-- ==== Sys2Proof/Machine/Compensation.lean ====
section
/-! DEFINITION. The polynomial evaluator (41_compensation.md): the default bodies of the parameter COMP, in the
parenthesisation written there, and the COMP a run has. -/

namespace Sys2Proof.Machine

/-- A calibration register as the binary64 operand it is converted to (00_scope.md R12, 10_state.md R32). -/
def coeff (w : Word) : Fl := Fl.ofInt w.toInt

/-- `fine` of 41_compensation.md R173. -/
def fineTemp (adcT : BitVec 20) (c : TempCoeffs) : Fl :=
  let adc := Fl.ofInt adcT.toNat
  let v1 := ((adc.div (Fl.ofInt 16384)).sub ((coeff c.t1).div (Fl.ofInt 1024))).mul (coeff c.t2)
  let b := (adc.div (Fl.ofInt 131072)).sub ((coeff c.t1).div (Fl.ofInt 8192))
  let v2 := (b.mul b).mul (coeff c.t3)
  v1.add v2

/-- `compT` (41_compensation.md R173). -/
def compT (adcT : BitVec 20) (c : TempCoeffs) : Word × Word :=
  let fine := fineTemp adcT c
  (fine.toBits, (fine.div (Fl.ofInt 5120)).toBits)

/-- The first `v1` of 41_compensation.md R175. -/
def pressStart (fine : Fl) : Fl := (fine.div (Fl.ofInt 2)).sub (Fl.ofInt 64000)

/-- `((v1 / 4.0) * (v1 / 4.0))`, which 41_compensation.md R175 writes twice. -/
def quarterSquare (v1 : Fl) : Fl := (v1.div (Fl.ofInt 4)).mul (v1.div (Fl.ofInt 4))

/-- The `v2` of 41_compensation.md R175 before the division. -/
def pressOffset (v1 : Fl) (c : PressCoeffs) : Fl :=
  let v2 := ((quarterSquare v1).div (Fl.ofInt 2048)).mul (coeff c.p6)
  let v2 := v2.add ((v1.mul (coeff c.p5)).mul (Fl.ofInt 2))
  (v2.div (Fl.ofInt 4)).add ((coeff c.p4).mul (Fl.ofInt 65536))

/-- The divisor `v1` of 41_compensation.md R175, the "first-stage denominator" of R176. -/
def pressDivisor (v1 : Fl) (c : PressCoeffs) : Fl :=
  let a := ((coeff c.p3).mul ((quarterSquare v1).div (Fl.ofInt 8192))).div (Fl.ofInt 8)
  let b := ((coeff c.p2).mul v1).div (Fl.ofInt 2)
  let v1 := (a.add b).div (Fl.ofInt 262144)
  (((Fl.ofInt 32768).add v1).mul (coeff c.p1)).div (Fl.ofInt 32768)

/-- The division of 41_compensation.md R175 with its branch on `p < 2147483648.0`. -/
def pressQuotient (p v1 : Fl) : Fl :=
  if p.lt (Fl.ofInt 2147483648) then (p.mul (Fl.ofInt 2)).div v1 else (p.div v1).mul (Fl.ofInt 2)

/-- The last four lines of 41_compensation.md R175. -/
def pressFinish (p : Fl) (c : PressCoeffs) : Fl :=
  let v1 := ((coeff c.p9).mul (((p.div (Fl.ofInt 8)).mul (p.div (Fl.ofInt 8))).div (Fl.ofInt 8192))).div (Fl.ofInt 4096)
  let v2 := ((p.div (Fl.ofInt 4)).mul (coeff c.p8)).div (Fl.ofInt 8192)
  p.add (((v1.add v2).add (coeff c.p7)).div (Fl.ofInt 16))

/-- `compP` (41_compensation.md R175), `none` where the divisor is exactly zero (R176). -/
def compP (adcP : BitVec 20) (fine : Word) (c : PressCoeffs) : Option Word :=
  let start := pressStart (Fl.ofBits fine)
  let divisor := pressDivisor start c
  if divisor.isZero then none
  else
    let p := (((Fl.ofInt 1048576).sub (Fl.ofInt adcP.toNat)).sub ((pressOffset start c).div (Fl.ofInt 4096))).mul (Fl.ofInt 3125)
    some (pressFinish (pressQuotient p divisor) c).toBits

/-- `h = fine - 76800.0` (41_compensation.md R178). -/
def humOffset (fine : Word) : Fl := (Fl.ofBits fine).sub (Fl.ofInt 76800)

/-- `h3`, the unclamped humidity of 41_compensation.md R178. -/
def humRaw (adcH : BitVec 16) (h : Fl) (c : HumCoeffs) : Fl :=
  let one := Fl.ofInt 1
  let x := ((coeff c.h4).mul (Fl.ofInt 64)).add (((coeff c.h5).div (Fl.ofInt 16384)).mul h)
  let g3 := one.add (((coeff c.h3).div (Fl.ofInt 67108864)).mul h)
  let y := ((coeff c.h2).div (Fl.ofInt 65536)).mul (one.add ((((coeff c.h6).div (Fl.ofInt 67108864)).mul h).mul g3))
  let h2 := ((Fl.ofInt adcH.toNat).sub x).mul y
  h2.mul (one.sub (((coeff c.h1).mul h2).div (Fl.ofInt 524288)))

/-- The clamp to [0, 100] (41_compensation.md R179). -/
def humClamp (h3 : Fl) : Word × HumEvent :=
  if (Fl.ofInt 100).lt h3 then ((Fl.ofInt 100).toBits, .clampHi)
  else if h3.lt (Fl.ofInt 0) then ((Fl.zero false).toBits, .clampLo)
  else (h3.toBits, .none)

/-- `compH` (41_compensation.md R178), its guard before its clamp (R179). -/
def compH (adcH : BitVec 16) (fine : Word) (c : HumCoeffs) : Word × HumEvent :=
  let h := humOffset fine
  if h.isZero then ((Fl.zero false).toBits, .divGuard) else humClamp (humRaw adcH h c)

/-- The default of COMP (00_scope.md R8). -/
def Comp.default : Comp := { temperature := compT, pressure := compP, humidity := compH }

/-- The three compensation functions of a run (00_scope.md R8, 10_state.md R44). -/
def CompChoice.functions : CompChoice → Comp
  | .default => Comp.default
  | .other k => Config.otherComp k

/-- `pressure_hPa = p / 100.0` (41_compensation.md R177). -/
def toHectopascal (p : Word) : Word := ((Fl.ofBits p).div (Fl.ofInt 100)).toBits

end Sys2Proof.Machine
end

