-- ==== Sys2Proof/Machine/Datapath.lean ====
section
/-! DEFINITION. The pure functions of 40_datapath.md on the bytes the transactions return: sign-extender, calibration and
raw-sample unpackers, gas decoders, range validator, environment encoder. -/

namespace Sys2Proof.Machine

/-- Byte `k` of a staged byte sequence. Past its end it is 0, which no run reads: log 12. -/
def byteAt (b : List Byte) (k : Nat) : Byte := b.getD k 0

/-- The sign-extender `sext_n`, its result as the 64-bit two's-complement integer a CAL_* register holds
(40_datapath.md R130, 10_state.md R32). -/
def sext {n : Nat} (v : BitVec n) : Word := v.signExtend 64

/-- An unsigned field as the 64-bit integer a CAL_* register holds (10_state.md R32). -/
def zext {n : Nat} (v : BitVec n) : Word := v.zeroExtend 64

/-- `le16(i)`, the little-endian word at byte `i` (40_datapath.md R133). -/
def le16 (c : List Byte) (i : Nat) : BitVec 16 := byteAt c (i + 1) ++ byteAt c i

/-- `be16(x, y)` (40_datapath.md R145). -/
def be16 (x y : Byte) : BitVec 16 := x ++ y

/-- A narrow signed humidity field under NARROW_SEXT: sign-extended at its own width, or used as read
(40_datapath.md R132). -/
def narrowSext {n : Nat} (p : NarrowSext) (v : BitVec n) : Word :=
  match p with
  | .fieldWidth => sext v
  | .rule16 => zext v

/-- `h4` of 40_datapath.md R133: 0xE4 holds bits [11:4], the low nibble of 0xE5 bits [3:0] (R134). -/
def humH4 (c : List Byte) : BitVec 12 := byteAt c 28 ++ (byteAt c 29).extractLsb' 0 4

/-- `h5` of 40_datapath.md R133: 0xE6 holds bits [11:4], the high nibble of 0xE5 bits [3:0] (R134). -/
def humH5 (c : List Byte) : BitVec 12 := byteAt c 30 ++ (byteAt c 29).extractLsb' 4 4

/-- `unpackCal` (40_datapath.md R133) on the 32 calibration bytes in the order CLIM.INIT reads them. -/
def unpackCal (p : NarrowSext) (c : List Byte) : CalibrationSet :=
  { temp := { t1 := zext (le16 c 0), t2 := sext (le16 c 2), t3 := sext (le16 c 4) }
    press :=
      { p1 := zext (le16 c 6), p2 := sext (le16 c 8), p3 := sext (le16 c 10), p4 := sext (le16 c 12)
        p5 := sext (le16 c 14), p6 := sext (le16 c 16), p7 := sext (le16 c 18), p8 := sext (le16 c 20)
        p9 := sext (le16 c 22) }
    hum :=
      { h1 := zext (byteAt c 24), h2 := sext (le16 c 25), h3 := zext (byteAt c 27)
        h4 := narrowSext p (humH4 c), h5 := narrowSext p (humH5 c), h6 := narrowSext p (byteAt c 31) } }

/-- `unpackRaw` (40_datapath.md R140) on the 8-byte burst. -/
def unpackRaw (b : List Byte) : RawSample :=
  { adcP := byteAt b 0 ++ byteAt b 1 ++ (byteAt b 2).extractLsb' 4 4
    adcT := byteAt b 3 ++ byteAt b 4 ++ (byteAt b 5).extractLsb' 4 4
    adcH := byteAt b 6 ++ byteAt b 7 }

/-- The word a read of RAW_SAMPLE returns (10_state.md R30). -/
def RawSample.word (r : RawSample) : Word := (0 : BitVec 8) ++ r.adcH ++ r.adcT ++ r.adcP

/-- `dataReady(s)`: bit 3 of the gas status byte (40_datapath.md R146). -/
def dataReady (s : Byte) : Bool := s.getLsbD 3

/-- The raw-pressure gate (40_datapath.md R150). -/
def pressureOK (adcP : BitVec 20) : Bool := decide (adcP.toNat < 0x80000)

/-- The eCO2 range, both bounds exclusive (40_datapath.md R151). -/
def eco2OK (v : BitVec 16) : Bool := decide (400 < v.toNat) && decide (v.toNat < 8192)

/-- The TVOC range, both bounds exclusive (40_datapath.md R152). -/
def tvocOK (v : BitVec 16) : Bool := decide (0 < v.toNat) && decide (v.toNat < 1187)

/-- The 8 bytes of a result block as GAS_RESULT holds them, byte `k` at bits [63-8k : 56-8k] (10_state.md R31). -/
def gasResultWord (r : List Byte) : Word :=
  byteAt r 0 ++ byteAt r 1 ++ byteAt r 2 ++ byteAt r 3 ++ byteAt r 4 ++ byteAt r 5 ++ byteAt r 6 ++ byteAt r 7

/-- One scaled value rounded to an environment word; `none` (REFUSE) for a NaN, an infinity or a rounded value outside
0..0xFFFF (40_datapath.md R157). -/
def envWord (ties : RoundTies) (x : Fl) : Option (BitVec 16) :=
  match x.roundInt ties with
  | none => none
  | some v => if 0 ≤ v ∧ v ≤ 0xFFFF then some (BitVec.ofInt 16 v) else none

/-- The scaled humidity `h * 512.0` (40_datapath.md R157). -/
def envScaledHum (h : Word) : Fl := (Fl.ofBits h).mul (Fl.ofInt 512)

/-- The scaled temperature `(t + 25.0) * 512.0` (40_datapath.md R157). -/
def envScaledTemp (t : Word) : Fl := ((Fl.ofBits t).add (Fl.ofInt 25)).mul (Fl.ofInt 512)

/-- `encEnv(h, t)` as its two words (hw, tw); `none` is REFUSE (40_datapath.md R157). -/
def encEnv (ties : RoundTies) (h t : Word) : Option (BitVec 16 × BitVec 16) :=
  match envWord ties (envScaledHum h), envWord ties (envScaledTemp t) with
  | some hw, some tw => some (hw, tw)
  | _, _ => none

/-- The block [hH, hL, tH, tL] of the two words (40_datapath.md R157, 20_memory.md R72). -/
def envBytes (hw tw : BitVec 16) : Vector Byte 4 :=
  #v[hw.extractLsb' 8 8, hw.extractLsb' 0 8, tw.extractLsb' 8 8, tw.extractLsb' 0 8]

end Sys2Proof.Machine
end

