-- ==== Sys2Proof/Machine/DeviceBytes.lean ====
section
/-! DEFINITION. The byte formats of the sensors' configuration registers and the bytes the ESCP writes to them
(00_scope.md R9, 10_state.md R36, 30_encoding.md R120 to R127). -/

namespace Sys2Proof.Machine

/-- An oversampling setting (30_encoding.md R120). -/
inductive Oversampling where
  | skipped
  | x1
  | x2
  | x4
  | x8
  | x16
deriving DecidableEq, Repr

/-- The code of `osrs_h`, `osrs_t` and `osrs_p` (30_encoding.md R120). -/
def Oversampling.code : Oversampling → BitVec 3
  | .skipped => 0b000
  | .x1 => 0b001
  | .x2 => 0b010
  | .x4 => 0b011
  | .x8 => 0b100
  | .x16 => 0b101

/-- The climate sensor's mode (30_encoding.md R121). -/
inductive SensorMode where
  | sleep
  | forced
  | normal
deriving DecidableEq, Repr

/-- The `mode` code (30_encoding.md R121). -/
def SensorMode.code : SensorMode → BitVec 2
  | .sleep => 0b00
  | .forced => 0b01
  | .normal => 0b11

/-- The standby time in microseconds (30_encoding.md R122). -/
inductive Standby where
  | us500
  | us62500
  | us125000
  | us250000
  | us500000
  | us1000000
  | us10000
  | us20000
deriving DecidableEq, Repr

/-- The `t_sb` code (30_encoding.md R122). -/
def Standby.code : Standby → BitVec 3
  | .us500 => 0b000
  | .us62500 => 0b001
  | .us125000 => 0b010
  | .us250000 => 0b011
  | .us500000 => 0b100
  | .us1000000 => 0b101
  | .us10000 => 0b110
  | .us20000 => 0b111

/-- The IIR filter coefficient (30_encoding.md R122). -/
inductive IirFilter where
  | off
  | c2
  | c4
  | c8
  | c16
deriving DecidableEq, Repr

/-- The `filter` code (30_encoding.md R122). -/
def IirFilter.code : IirFilter → BitVec 3
  | .off => 0b000
  | .c2 => 0b001
  | .c4 => 0b010
  | .c8 => 0b011
  | .c16 => 0b100

/-- The gas sensor's drive mode (10_state.md R36). -/
inductive DriveMode where
  | idle
  | ms250
  | s1
  | s10
  | s60
deriving DecidableEq, Repr

/-- The 3-bit drive-mode code (10_state.md R36). -/
def DriveMode.code : DriveMode → BitVec 3
  | .idle => 0b000
  | .s1 => 0b001
  | .s10 => 0b010
  | .s60 => 0b011
  | .ms250 => 0b100

/-- Register 0xF2: `osrs_h` in [2:0] (30_encoding.md R120). -/
def ctrlHumByte (h : Oversampling) : Byte := (0 : BitVec 5) ++ h.code

/-- Register 0xF4: `osrs_t` in [7:5], `osrs_p` in [4:2], `mode` in [1:0] (30_encoding.md R121). -/
def ctrlMeasByte (t p : Oversampling) (m : SensorMode) : Byte := t.code ++ p.code ++ m.code

/-- Register 0xF5: `t_sb` in [7:5], `filter` in [4:2], `spi3w_en` in [0] (30_encoding.md R122). -/
def climConfigByte (sb : Standby) (f : IirFilter) (spi3w : Bool) : Byte :=
  sb.code ++ f.code ++ (0 : BitVec 1) ++ BitVec.ofBool spi3w

/-- Gas register 0x01: drive mode in [6:4], interrupt enable in [3], other bits 0 (30_encoding.md R123). -/
def measModeByte (d : DriveMode) (interrupt : Bool) : Byte :=
  (0 : BitVec 1) ++ d.code ++ BitVec.ofBool interrupt ++ (0 : BitVec 3)

/-- What CLIM.INIT writes to 0xF2: humidity x1 (30_encoding.md R124). -/
def climInitHumByte : Byte := ctrlHumByte .x1

/-- What CLIM.INIT writes to 0xF4: temperature x2, pressure x16, normal mode (30_encoding.md R125). -/
def climInitMeasByte : Byte := ctrlMeasByte .x2 .x16 .normal

/-- What CLIM.INIT writes to 0xF5: standby 0.5 ms, filter 16 (30_encoding.md R126). -/
def climInitConfigByte : Byte := climConfigByte .us500 .c16 false

/-- The fixed drive mode of this core (00_scope.md R9). -/
def fixedDriveMode : DriveMode := .s1

/-- What GAS.INIT writes to 0x01: the 1 s drive mode, interrupt disabled (30_encoding.md R127). -/
def gasInitModeByte : Byte := measModeByte fixedDriveMode false

end Sys2Proof.Machine
end

