-- ==== Sys2Proof/Machine/Operands.lean ====
section
/-! DEFINITION. The operands a command reads: the latched device addresses and the environment pair that SRC selects
(30_encoding.md R92, R95; 43_gas_commands.md R239 to R241). -/

namespace Sys2Proof.Machine

/-- `ca`, the climate sensor's address latched at issue (30_encoding.md R95, R100). -/
def State.climateAddr (s : State) : Byte := s.seq.cfg.climateAddr

/-- `ga`, the gas sensor's address latched at issue (30_encoding.md R95, R100). -/
def State.gasAddr (s : State) : Byte := s.seq.cfg.gasAddr

/-- The SRC field of GAS.COMP (30_encoding.md R92). -/
inductive EnvSource where
  | default
  | operands
  | climate
deriving DecidableEq, Repr

/-- 50.0, the default humidity in %RH (43_gas_commands.md R239). -/
def defaultHumidity : Word := 0x4049000000000000

/-- 25.0, the default temperature in degrees Celsius (43_gas_commands.md R239). -/
def defaultTemperature : Word := 0x4039000000000000

/-- The pair (h, t) that SRC selects (43_gas_commands.md R239 to R241). HUM_PCT and TEMP_C cannot change while the
command runs (30_encoding.md R95), so reading them at a later step of the command reads them as at issue. -/
def envOperands (src : EnvSource) (s : State) : Word × Word :=
  match src with
  | .default => (defaultHumidity, defaultTemperature)
  | .operands => (s.seq.envH, s.seq.envT)
  | .climate => (s.climate.humPct, s.climate.tempC)

end Sys2Proof.Machine
end

