-- ==== Sys2Proof/Machine/Flags.lean ====
section
/-! DEFINITION. The flag words: the event bits (10_state.md R24), the error codes (60_exceptions.md R301), and STATUS
as a view of its fields (10_state.md R23). -/

namespace Sys2Proof.Machine

/-- P_SKIP, bit 0 of EVENTS (10_state.md R24). -/
def evPSkip : BitVec 11 := 0x001
/-- P_DIVGUARD, bit 1. -/
def evPDivGuard : BitVec 11 := 0x002
/-- H_DIVGUARD, bit 2. -/
def evHDivGuard : BitVec 11 := 0x004
/-- H_CLAMP_HI, bit 3. -/
def evHClampHi : BitVec 11 := 0x008
/-- H_CLAMP_LO, bit 4. -/
def evHClampLo : BitVec 11 := 0x010
/-- ECO2_REJECT, bit 5. -/
def evEco2Reject : BitVec 11 := 0x020
/-- TVOC_REJECT, bit 6. -/
def evTvocReject : BitVec 11 := 0x040
/-- GAS_NO_DATA, bit 7. -/
def evGasNoData : BitVec 11 := 0x080
/-- TRANSPORT_ERR, bit 8. -/
def evTransportErr : BitVec 11 := 0x100
/-- CMD_ERR, bit 9. -/
def evCmdErr : BitVec 11 := 0x200
/-- OVERRUN, bit 10. -/
def evOverrun : BitVec 11 := 0x400

/-- The number in STATUS.ERR (60_exceptions.md R301). -/
def ErrCode.code : ErrCode → BitVec 4
  | .ok => 0
  | .illegal => 1
  | .notInit => 2
  | .transport => 3
  | .envRange => 4
  | .noClimate => 5

/-- The event bit that completion with an error code sets (30_encoding.md R104, 60_exceptions.md R300). -/
def ErrCode.event : ErrCode → BitVec 11
  | .ok => 0
  | .transport => evTransportErr
  | .illegal => evCmdErr
  | .notInit => evCmdErr
  | .envRange => evCmdErr
  | .noClimate => evCmdErr

/-- The number in STATUS.GAS_ST (10_state.md R35). -/
def GasState.code : GasState → BitVec 2
  | .uninit => 0
  | .booted => 1
  | .dataNotReady => 2
  | .dataReady => 3

/-- STATUS.BUSY: 1 exactly when `phase = RUN` (10_state.md R40). -/
def State.busy (s : State) : Bool := s.seq.phase == .run

/-- The word a read of STATUS returns: the fields at the bits of 10_state.md R23, every other bit 0. -/
def State.status (s : State) : Word :=
  (0 : BitVec 44) ++ BitVec.ofBool s.gas.tvocValid ++ BitVec.ofBool s.gas.eco2Valid
    ++ BitVec.ofBool s.climate.thValid ++ BitVec.ofBool s.climate.pValid ++ (0 : BitVec 1)
    ++ s.gas.drive ++ BitVec.ofBool s.gas.ready ++ s.gas.st.code ++ BitVec.ofBool s.climate.calValid
    ++ s.err.code ++ (0 : BitVec 2) ++ BitVec.ofBool s.done ++ BitVec.ofBool s.busy

end Sys2Proof.Machine
end

