-- ==== Sys2Proof/Machine/Ops.lean ====
section
/-! DEFINITION. The shared operations of the sequencer: issue, bus transactions, completion and error, and the execution
template (30_encoding.md R98 to R104; 20_memory.md R62 to R67; 60_exceptions.md R300, R316). -/

namespace Sys2Proof.Machine

/-- How many bytes an OK response to a transaction carries: one for a byte read, `n` for a block read, none for a write
(20_memory.md R66). -/
def Transaction.replyLen : Transaction → Nat
  | .rdByte _ _ => 1
  | .rdBlock _ _ n => n.toNat
  | .wrByte _ _ _ => 0
  | .wrBlock _ _ _ _ => 0

/-- The response as the ESCP takes it: an OK of another length is a FAIL (20_memory.md R66). -/
def Transaction.conform (t : Transaction) (r : BusResponse) : BusResponse :=
  match r with
  | .ok b => if b.length = t.replyLen then .ok b else .fail
  | .fail => .fail

/-- The transport's next response: the next scripted one, else a free value (20_memory.md R66; log 4). -/
def Environment.nextAnswer (v : Environment) : BusResponse :=
  match v.answers with
  | r :: _ => r
  | [] => Config.busDraw v.draws

/-- The response the transport gives to transaction `t` in state `s` (20_memory.md R66). -/
def State.answer (t : Transaction) (s : State) : BusResponse := t.conform s.env.nextAnswer

/-- The transport has used up one response. -/
def Environment.consume (v : Environment) : Environment :=
  { v with answers := v.answers.tail, draws := v.draws + 1 }

/-- A transaction and its response happened on the port (70_reset_and_hazards.md R360). -/
def State.logBus (t : Transaction) (r : Option BusResponse) (s : State) : State :=
  { s with env := { s.env.consume with busLog := s.env.busLog ++ [{ txn := t, resp := r }] } }

/-- What a command writes at a completion with ERR = OK: the two units and the events it raises (30_encoding.md R103, R104). -/
structure Effects where
  climate : ClimateUnit
  gas     : GasUnit
  events  : BitVec 11
deriving DecidableEq, Repr

/-- The empty commit block: no unit register written, no event (30_encoding.md R104). -/
def State.unchanged (s : State) : Effects := { climate := s.climate, gas := s.gas, events := 0 }

/-- `complete(e, W)` (30_encoding.md R104): apply the writes, set ERR, OR the events in, BUSY <- 0, DONE <- 1, phase IDLE. -/
def complete (e : ErrCode) (w : Effects) (s : State) : State :=
  { s with
    climate := w.climate
    gas := w.gas
    err := e
    events := s.events ||| w.events ||| e.event
    done := true
    seq := { s.seq with phase := .idle } }

/-- `raise E`, the ESCP's analogue of taking an exception (60_exceptions.md R300, R316): the command ends with the code and
its event bit and writes no unit register. There is no return from it (R317): the next CMD write issues the next command. -/
def raiseErr (e : ErrCode) (s : State) : State := complete e s.unchanged s

/-- One transaction and its response: OK stages the bytes and moves to the next transaction (30_encoding.md R98), FAIL ends
the command with TRANSPORT (R102). -/
def transact (t : Transaction) (s : State) : State :=
  match s.answer t with
  | .fail => raiseErr .transport (s.logBus t (some .fail))
  | .ok b =>
    let s' := s.logBus t (some (.ok b))
    { s' with seq := { s'.seq with buf := s'.seq.buf ++ b, step := s'.seq.step + 1 } }

/-- One step of `run()` (30_encoding.md R98): the precheck's error, else the next transaction of the schedule, else the
completion with the command's effects. The precheck is a function of what cannot change while a command runs
(R95, R103), so testing it at every step tests it "before any transaction": log 7. -/
def advance (pre : ErrCode) (next : Option Transaction) (eff : Effects) (s : State) : State :=
  match pre with
  | .ok =>
    match next with
    | some t => transact t s
    | none => complete .ok eff s
  | .illegal => raiseErr .illegal s
  | .notInit => raiseErr .notInit s
  | .transport => raiseErr .transport s
  | .envRange => raiseErr .envRange s
  | .noClimate => raiseErr .noClimate s

/-- The issue step (30_encoding.md R98, 44_host_access.md R272): CMD and the latches take their values, BUSY <- 1, DONE <- 0. -/
def issue (w : Word) (s : State) : State :=
  { s with
    cmd := w
    done := false
    seq := { phase := .run, cmd := w, cfg := s.config, envH := s.envHIn, envT := s.envTIn, step := 0, buf := [] } }

/-- A running word that decodes to ILLEGAL (30_encoding.md R94, R99): no transaction, no unit register written. -/
def execIllegal (s : State) : State := raiseErr .illegal s

/-- The turns that follow the first one. -/
def State.nextTurn (s : State) : State := { s with env := { s.env with turns := s.env.turns.tail } }

/-- The state the sequencer moves from where the turn is its own: a `sequencer` turn, a `wait` while BUSY = 1 (which stays
pending), or no turn pending (log 6, log 9). -/
def State.sequencerView (s : State) : Option State :=
  match s.env.turns with
  | [] => some s
  | .sequencer :: _ => some s.nextTurn
  | .wait :: _ => if s.busy then some s else none
  | .rd _ :: _ => none
  | .wr _ _ :: _ => none
  | .reset _ :: _ => none

end Sys2Proof.Machine
end

