-- ==== Sys2Proof/Machine/Climate.lean ====
section
/-! DEFINITION. NOP, CLIM.INIT and CLIM.SAMPLE (42_climate_commands.md). -/

namespace Sys2Proof.Machine

/-- NOP: no precheck, no transaction, nothing written (42_climate_commands.md R200). -/
def execNop (s : State) : Host.Outcome State Fault Refusal := .next (advance .ok none s.unchanged s)

/-- The six transactions of CLIM.INIT, `ca` the climate sensor's address (30_encoding.md R100, 42_climate_commands.md R203). -/
def climInitSchedule (ca : Byte) : List Transaction :=
  [.wrByte ca 0xF2 climInitHumByte, .wrByte ca 0xF4 climInitMeasByte, .wrByte ca 0xF5 climInitConfigByte,
   .rdBlock ca 0x88 24, .rdByte ca 0xA1, .rdBlock ca 0xE1 7]

/-- The commit of CLIM.INIT (42_climate_commands.md R206): CAL_* and CAL_VALID, and the outputs cleared. -/
def climInitEffects (s : State) : Effects :=
  { climate := { ClimateUnit.reset with cal := unpackCal s.params.narrowSext s.seq.buf, calValid := true }
    gas := s.gas
    events := 0 }

/-- CLIM.INIT (42_climate_commands.md R203 to R207). -/
def execClimInit (s : State) : Host.Outcome State Fault Refusal :=
  .next (advance .ok ((climInitSchedule s.climateAddr)[s.seq.step]?) (climInitEffects s) s)

/-- CLIM.SAMPLE's precheck: NOT_INIT while the climate unit is UNINIT (42_climate_commands.md R209, 30_encoding.md R99). -/
def climSamplePrecheck (s : State) : ErrCode := if s.climate.calValid then .ok else .notInit

/-- The one transaction of CLIM.SAMPLE (30_encoding.md R100). -/
def climSampleSchedule (ca : Byte) : List Transaction := [.rdBlock ca 0xF7 8]

/-- The event bit of a humidity outcome (41_compensation.md R179). -/
def HumEvent.bit : HumEvent → BitVec 11
  | .none => 0
  | .divGuard => evHDivGuard
  | .clampHi => evHClampHi
  | .clampLo => evHClampLo

/-- What a sample does to PRESS_HPA: `none` where the raw-pressure gate fails and it is kept, else the value written
(42_climate_commands.md R209, 41_compensation.md R176, R177). -/
def samplePressure (C : Comp) (raw : RawSample) (fine : Word) (c : PressCoeffs) : Option (Option Word) :=
  if pressureOK raw.adcP then some ((C.pressure raw.adcP fine c).map toHectopascal) else none

/-- The event of the pressure path: P_SKIP, P_DIVGUARD or none (42_climate_commands.md R209, 60_exceptions.md R311). -/
def pressureEvent : Option (Option Word) → BitVec 11
  | none => evPSkip
  | some none => evPDivGuard
  | some (some _) => 0

/-- The commit of CLIM.SAMPLE under compensation functions `C` (42_climate_commands.md R209, R212). -/
def climSampleEffects (C : Comp) (s : State) : Effects :=
  let u := s.climate
  let raw := unpackRaw s.seq.buf
  let t := C.temperature raw.adcT u.cal.temp
  let p := samplePressure C raw t.1 u.cal.press
  let h := C.humidity raw.adcH t.1 u.cal.hum
  { climate :=
      { u with
        raw := raw
        fine := t.1
        tempC := t.2
        humPct := h.1
        thValid := true
        pressHpa := match p with
          | none => u.pressHpa
          | some v => v.getD 0
        pValid := match p with
          | none => u.pValid
          | some _ => true }
    gas := s.gas
    events := pressureEvent p ||| h.2.bit }

/-- CLIM.SAMPLE under compensation functions `C` (42_climate_commands.md R209 to R213). -/
def climSampleWith (C : Comp) (s : State) : State :=
  advance (climSamplePrecheck s) ((climSampleSchedule s.climateAddr)[s.seq.step]?) (climSampleEffects C s) s

/-- CLIM.SAMPLE with the COMP of the run (00_scope.md R8, 10_state.md R44; log 3). -/
def execClimSample (s : State) : Host.Outcome State Fault Refusal := .next (climSampleWith s.params.comp.functions s)

end Sys2Proof.Machine
end

