-- ==== Sys2Proof/Machine/Gas.lean ====
section
/-! DEFINITION. GAS.INIT, GAS.READY, the three GAS.COMP commands, GAS.UPDATE and GAS.SAMPLE (43_gas_commands.md). -/

namespace Sys2Proof.Machine

/-- The two transactions of GAS.INIT: the zero-length boot write, then the mode write (43_gas_commands.md R230). -/
def gasInitSchedule (ga : Byte) : List Transaction := [.wrBlock ga 0xF4 0 #v[], .wrByte ga 0x01 gasInitModeByte]

/-- The commit of GAS.INIT (43_gas_commands.md R232): BOOTED with the drive code written, everything else cleared. -/
def gasInitEffects (s : State) : Effects :=
  { climate := s.climate
    gas := { GasUnit.reset with st := .booted, drive := fixedDriveMode.code }
    events := 0 }

/-- GAS.INIT (43_gas_commands.md R230 to R233). -/
def execGasInit (s : State) : Host.Outcome State Fault Refusal :=
  .next (advance .ok ((gasInitSchedule s.gasAddr)[s.seq.step]?) (gasInitEffects s) s)

/-- NOT_INIT while the gas unit is UNINIT (30_encoding.md R99). -/
def gasPrecheck (s : State) : ErrCode := if s.gas.st = .uninit then .notInit else .ok

/-- The one transaction of GAS.READY (43_gas_commands.md R234). -/
def gasReadySchedule (ga : Byte) : List Transaction := [.rdByte ga 0x00]

/-- The commit of GAS.READY: the GAS_READY bit alone (43_gas_commands.md R235). -/
def gasReadyEffects (s : State) : Effects :=
  { climate := s.climate
    gas := { s.gas with ready := dataReady (byteAt s.seq.buf 0) }
    events := 0 }

/-- GAS.READY (43_gas_commands.md R234 to R237). -/
def execGasReady (s : State) : Host.Outcome State Fault Refusal :=
  .next (advance (gasPrecheck s) ((gasReadySchedule s.gasAddr)[s.seq.step]?) (gasReadyEffects s) s)

/-- The two environment words of the operands SRC selects, `none` where the encoder refuses (43_gas_commands.md R238). -/
def compWords (src : EnvSource) (s : State) : Option (BitVec 16 × BitVec 16) :=
  encEnv s.params.roundTies (envOperands src s).1 (envOperands src s).2

/-- GAS.COMP's precheck in the order NOT_INIT, NO_CLIMATE, ENV_RANGE (30_encoding.md R99, 43_gas_commands.md R238). -/
def compPrecheck (src : EnvSource) (s : State) : ErrCode :=
  if s.gas.st = .uninit then .notInit
  else if src = .climate ∧ s.climate.thValid = false then .noClimate
  else if (compWords src s).isNone then .envRange
  else .ok

/-- The one transaction of GAS.COMP: the 4-byte block to register 0x05 (43_gas_commands.md R238). -/
def compSchedule (src : EnvSource) (s : State) : List Transaction :=
  match compWords src s with
  | some w => [.wrBlock s.gasAddr 0x05 4 (envBytes w.1 w.2)]
  | none => []

/-- The commit of GAS.COMP: ENV_WORDS alone (43_gas_commands.md R243). -/
def compEffects (src : EnvSource) (s : State) : Effects :=
  { climate := s.climate
    gas := match compWords src s with
      | some w => { s.gas with humWord := w.1, tempWord := w.2 }
      | none => s.gas
    events := 0 }

/-- One step of GAS.COMP with the given operand source (43_gas_commands.md R238). -/
def compensate (src : EnvSource) (s : State) : State :=
  advance (compPrecheck src s) ((compSchedule src s)[s.seq.step]?) (compEffects src s) s

/-- GAS.COMP: 50.0 %RH and 25.0 degrees (43_gas_commands.md R239). -/
def execGasComp (s : State) : Host.Outcome State Fault Refusal := .next (compensate .default s)

/-- GAS.COMP.OPND: ENV_H_IN and ENV_T_IN latched at issue (43_gas_commands.md R240). -/
def execGasCompOpnd (s : State) : Host.Outcome State Fault Refusal := .next (compensate .operands s)

/-- GAS.COMP.CLIM: HUM_PCT and TEMP_C, which need TH_VALID (43_gas_commands.md R241). -/
def execGasCompClim (s : State) : Host.Outcome State Fault Refusal := .next (compensate .climate s)

/-- The transactions of GAS.UPDATE: the status byte, then the result block only if its bit 3 is set
(30_encoding.md R100, R101). -/
def updateSchedule (ga : Byte) (buf : List Byte) : List Transaction :=
  [.rdByte ga 0x00] ++ (if dataReady (byteAt buf 0) then [.rdBlock ga 0x02 8] else [])

/-- The commit of an update that found no data (43_gas_commands.md R246). -/
def noDataEffects (s : State) : Effects :=
  { climate := s.climate
    gas := { s.gas with st := .dataNotReady, ready := false }
    events := evGasNoData }

/-- The commit of an update that read the result block `r` (43_gas_commands.md R248): each value is judged by itself. -/
def dataEffects (r : List Byte) (s : State) : Effects :=
  let eco2 := be16 (byteAt r 0) (byteAt r 1)
  let tvoc := be16 (byteAt r 2) (byteAt r 3)
  { climate := s.climate
    gas :=
      { s.gas with
        st := .dataReady
        ready := true
        result := gasResultWord r
        eco2 := if eco2OK eco2 then eco2 else s.gas.eco2
        eco2Valid := if eco2OK eco2 then true else s.gas.eco2Valid
        tvoc := if tvocOK tvoc then tvoc else s.gas.tvoc
        tvocValid := if tvocOK tvoc then true else s.gas.tvocValid }
    events := (if eco2OK eco2 then 0 else evEco2Reject) ||| (if tvocOK tvoc then 0 else evTvocReject) }

/-- The commit of GAS.UPDATE: the staged bytes are the status byte, then the block (43_gas_commands.md R244). -/
def updateEffects (s : State) : Effects :=
  if dataReady (byteAt s.seq.buf 0) then dataEffects (s.seq.buf.drop 1) s else noDataEffects s

/-- The schedule step of GAS.UPDATE: step 0 does not depend on the buffer; step 1 does (30_encoding.md R101). -/
def updateStep (s : State) : State :=
  advance (gasPrecheck s) ((updateSchedule s.gasAddr s.seq.buf)[s.seq.step]?) (updateEffects s) s

/-- GAS.UPDATE (43_gas_commands.md R244 to R249). -/
def execGasUpdate (s : State) : Host.Outcome State Fault Refusal := .next (updateStep s)

/-- GAS.SAMPLE: exactly GAS.UPDATE; the pair the source returns is what the host reads afterwards (43_gas_commands.md R250). -/
def execGasSample (s : State) : Host.Outcome State Fault Refusal := .next (updateStep s)

end Sys2Proof.Machine
end

