-- ==== Sys2Proof/Machine/Dispatch.lean ====
section
/-! DEFINITION. One arm per command: a step of the sequencer while that command runs (30_encoding.md R98). -/

namespace Sys2Proof.Machine

/-- What the sequencer does in one step while command `i` runs (30_encoding.md R98, 70_reset_and_hazards.md R356). -/
def exec (i : Instr) (s : State) : Host.Outcome State Fault Refusal :=
  match i with
  | .nop => Sys2Proof.Machine.execNop s
  | .climInit => Sys2Proof.Machine.execClimInit s
  | .climSample => Sys2Proof.Machine.execClimSample s
  | .gasInit => Sys2Proof.Machine.execGasInit s
  | .gasReady => Sys2Proof.Machine.execGasReady s
  | .gasComp => Sys2Proof.Machine.execGasComp s
  | .gasCompOpnd => Sys2Proof.Machine.execGasCompOpnd s
  | .gasCompClim => Sys2Proof.Machine.execGasCompClim s
  | .gasUpdate => Sys2Proof.Machine.execGasUpdate s
  | .gasSample => Sys2Proof.Machine.execGasSample s

end Sys2Proof.Machine
end

