-- ==== Sys2Proof/Machine/Template.lean ====
section
/-! DEFINITION. What each command gives the execution template, as functions of the command: its precheck, its next
transaction and its effects (30_encoding.md R98 to R100). The reset input and the statements read them; each
command's meaning names the same definitions itself. -/

namespace Sys2Proof.Machine

/-- `precheck(c)` of a decoded command (30_encoding.md R99). -/
def precheckOf (i : Instr) (s : State) : ErrCode :=
  match i with
  | .nop => .ok
  | .climInit => .ok
  | .climSample => climSamplePrecheck s
  | .gasInit => .ok
  | .gasReady => gasPrecheck s
  | .gasComp => compPrecheck .default s
  | .gasCompOpnd => compPrecheck .operands s
  | .gasCompClim => compPrecheck .climate s
  | .gasUpdate => gasPrecheck s
  | .gasSample => gasPrecheck s

/-- The schedule of a command in the state it runs in (30_encoding.md R100). -/
def scheduleOf (i : Instr) (s : State) : List Transaction :=
  match i with
  | .nop => []
  | .climInit => climInitSchedule s.climateAddr
  | .climSample => climSampleSchedule s.climateAddr
  | .gasInit => gasInitSchedule s.gasAddr
  | .gasReady => gasReadySchedule s.gasAddr
  | .gasComp => compSchedule .default s
  | .gasCompOpnd => compSchedule .operands s
  | .gasCompClim => compSchedule .climate s
  | .gasUpdate => updateSchedule s.gasAddr s.seq.buf
  | .gasSample => updateSchedule s.gasAddr s.seq.buf

/-- `next_transaction(c, buf, step)`; `none` when the schedule is finished (30_encoding.md R98, R100). -/
def nextTxnOf (i : Instr) (s : State) : Option Transaction := (scheduleOf i s)[s.seq.step]?

/-- `effects(c, buf)`: what the command commits at completion with ERR = OK (30_encoding.md R98, R103). -/
def effectsOf (i : Instr) (s : State) : Effects :=
  match i with
  | .nop => s.unchanged
  | .climInit => climInitEffects s
  | .climSample => climSampleEffects s.params.comp.functions s
  | .gasInit => gasInitEffects s
  | .gasReady => gasReadyEffects s
  | .gasComp => compEffects .default s
  | .gasCompOpnd => compEffects .operands s
  | .gasCompClim => compEffects .climate s
  | .gasUpdate => updateEffects s
  | .gasSample => updateEffects s

/-- The transaction a running command waits for, if it waits for one (20_memory.md R67). -/
def pendingTxn (s : State) : Option Transaction :=
  match s.seq.phase with
  | .idle => none
  | .run =>
    match decode s.seq.cmd with
    | .ok i => if precheckOf i s = .ok then nextTxnOf i s else none
    | .error _ => none

end Sys2Proof.Machine
end

