-- ==== Sys2Proof/Machine/HostPort.lean ====
section
/-! DEFINITION. Host access to the register file and the reset input (10_state.md R21; 44_host_access.md R270 to R278;
70_reset_and_hazards.md R340, R343). -/

namespace Sys2Proof.Machine

/-- The word of a CONFIG (10_state.md R25). -/
def BusConfig.word (c : BusConfig) : Word := (0 : BitVec 48) ++ c.gasAddr ++ c.climateAddr

/-- CONFIG from a written word: bits [15:0] (44_host_access.md R274). -/
def BusConfig.ofWord (v : Word) : BusConfig :=
  { climateAddr := v.extractLsb' 0 8, gasAddr := v.extractLsb' 8 8 }

/-- The calibration registers in index order from 0x14 (10_state.md R21). -/
def CalibrationSet.words (c : CalibrationSet) : List Word :=
  [c.temp.t1, c.temp.t2, c.temp.t3,
   c.press.p1, c.press.p2, c.press.p3, c.press.p4, c.press.p5, c.press.p6, c.press.p7, c.press.p8, c.press.p9,
   c.hum.h1, c.hum.h2, c.hum.h3, c.hum.h4, c.hum.h5, c.hum.h6]

/-- The host register file in index order (10_state.md R21); a reserved index holds 0. -/
def State.registers (s : State) : List Word :=
  [s.cmd, s.status, s.events.zeroExtend 64, s.config.word, s.envHIn, s.envTIn, 0, 0,
   s.climate.tempC, s.climate.pressHpa, s.climate.humPct, s.climate.fine,
   s.gas.eco2.zeroExtend 64, s.gas.tvoc.zeroExtend 64,
   (0 : BitVec 32) ++ s.gas.tempWord ++ s.gas.humWord, s.climate.raw.word, s.gas.result, 0, 0, 0]
  ++ s.climate.cal.words

/-- The 64-bit value a read of register `i` returns (44_host_access.md R271): past CAL_H6 every index is reserved and
reads 0 (10_state.md R21). -/
def readReg (i : BitVec 6) (s : State) : Word := s.registers.getD i.toNat 0

/-- `RD i`: the value is shown on the host port; no register changes (44_host_access.md R271; log 15). -/
def hostRead (i : BitVec 6) (s : State) : State :=
  { s with env := { s.env with readLog := s.env.readLog ++ [(i, readReg i s)] } }

/-- `WR CMD, w`: issue while IDLE, else dropped with OVERRUN (44_host_access.md R272, R273). -/
def writeCmd (w : Word) (s : State) : State :=
  match s.seq.phase with
  | .idle => issue w s
  | .run => { s with events := s.events ||| evOverrun }

/-- `WR i, v` (44_host_access.md R272 to R278): a write to a read-only or reserved index is ignored. -/
def hostWrite (i : BitVec 6) (v : Word) (s : State) : State :=
  if i = 0x00 then writeCmd v s
  else if i = 0x02 then { s with events := s.events &&& ~~~(v.extractLsb' 0 11) }
  else if i = 0x03 then { s with config := BusConfig.ofWord v }
  else if i = 0x04 then { s with envHIn := v }
  else if i = 0x05 then { s with envTIn := v }
  else s

/-- The reset input with nothing on the port (70_reset_and_hazards.md R340): every register and field at its reset value; the
parameters and the surroundings are not reset (10_state.md R44; log 8). -/
def resetState (s : State) : State := { State.reset with params := s.params, env := s.env }

/-- The reset input (70_reset_and_hazards.md R340, R343): the running command is abandoned without commit. Where its next
transaction was already on the port, the port has shown it and its response is discarded (log 8). -/
def resetInput (inFlight : Bool) (s : State) : State :=
  match inFlight, pendingTxn s with
  | true, some t => resetState (s.logBus t none)
  | true, none => resetState s
  | false, _ => resetState s

/-- The first pending turn where it is not the sequencer's: one host access, the end of a wait, or the reset input
(44_host_access.md R270). -/
def outsideTurn (s : State) : State :=
  match s.env.turns with
  | .rd i :: _ => hostRead i s.nextTurn
  | .wr i v :: _ => hostWrite i v s.nextTurn
  | .reset f :: _ => resetInput f s.nextTurn
  | .wait :: _ => s.nextTurn
  | .sequencer :: _ => s.nextTurn
  | [] => s

end Sys2Proof.Machine
end

