-- ==== Sys2Proof/Machine/Step.lean ====
section
/-! DEFINITION. One step of the machine: the first pending turn, or the sequencer's where none is pending
(44_host_access.md R270, 70_reset_and_hazards.md R356). -/

namespace Sys2Proof.Machine

/-- One step of the sequencer: nothing while IDLE; while RUN, a step of the latched command word (30_encoding.md R98). -/
def runSequencer (s : State) : Host.Outcome State Fault Refusal :=
  match s.seq.phase with
  | .idle => .next s
  | .run =>
    match decode s.seq.cmd with
    | .ok i => exec i s
    | .error _ => .next (execIllegal s)

/-- One step: the sequencer's where the turn is its own, else the outside's. -/
def step (s : State) : Host.Outcome State Fault Refusal :=
  match s.sequencerView with
  | some t => runSequencer t
  | none => .next (outsideTurn s)

/-- The machine as it is once the host has issued the command word `w` (30_encoding.md R98) and the sequencer's turn is next.
The ESCP fetches nothing (20_memory.md R82): a CMD write is how a command comes to run (log 14). -/
def State.withFetchWord (s : State) (nbits w : Nat) : State :=
  issue (BitVec.ofNat 64 (w % 2 ^ nbits)) { s with env := { s.env with turns := .sequencer :: s.env.turns } }

end Sys2Proof.Machine
end

