-- ==== Sys2Proof/Machine/Assembler.lean ====
section
/-! DEFINITION. The lines of a host program and the host actions they stand for (30_encoding.md R110 to R112). -/

namespace Sys2Proof.Machine

/-- The mnemonic of a command (30_encoding.md R110). -/
def mnemonic : Instr → String
  | .nop => "NOP"
  | .climInit => "CLIM.INIT"
  | .climSample => "CLIM.SAMPLE"
  | .gasInit => "GAS.INIT"
  | .gasReady => "GAS.READY"
  | .gasComp => "GAS.COMP"
  | .gasCompOpnd => "GAS.COMP.OPND"
  | .gasCompClim => "GAS.COMP.CLIM"
  | .gasUpdate => "GAS.UPDATE"
  | .gasSample => "GAS.SAMPLE"

/-- A line of a host program (30_encoding.md R110 to R112). -/
inductive HostLine where
  /-- a mnemonic alone on a line -/
  | command (i : Instr)
  /-- `WR <register>, <value>` -/
  | write (i : BitVec 6) (v : Word)
  /-- `RD <register>` -/
  | read (i : BitVec 6)
  /-- `WAIT` -/
  | wait
  /-- `X!` -/
  | commandWait (i : Instr)
  /-- `GAS.COMP h, t` -/
  | gasCompWith (h t : Word)
  /-- `BOOT` -/
  | boot
  /-- `CYCLE` -/
  | cycle
  /-- `CLREV` -/
  | clrev
deriving DecidableEq, Repr

/-- A mnemonic line is one host write of its command word to CMD (30_encoding.md R110). -/
def commandTurns (i : Instr) : List Turn := [.wr 0x00 (encode i)]

/-- `X!` is `X` then `WAIT` (30_encoding.md R112). -/
def commandWaitTurns (i : Instr) : List Turn := commandTurns i ++ [.wait]

/-- The host actions a line stands for (30_encoding.md R110 to R112). -/
def HostLine.turns : HostLine → List Turn
  | .command i => commandTurns i
  | .write i v => [.wr i v]
  | .read i => [.rd i]
  | .wait => [.wait]
  | .commandWait i => commandWaitTurns i
  | .gasCompWith h t => [.wr 0x04 h, .wr 0x05 t] ++ commandTurns .gasCompOpnd
  | .boot => commandWaitTurns .climInit ++ commandWaitTurns .gasInit
  | .cycle => commandWaitTurns .climSample ++ commandWaitTurns .gasCompClim ++ commandWaitTurns .gasUpdate
  | .clrev => [.wr 0x02 0x7FF]

/-- The host actions of a program, in order (70_reset_and_hazards.md R360). -/
def assemble (p : List HostLine) : List Turn := p.flatMap HostLine.turns

end Sys2Proof.Machine
end

