-- ==== Sys2Proof/Safety.lean ====
section
/-! DEFINITION. The terms the statements use: the invariant of the machine (10_state.md R32, R38, R40), what each command may
end with and raise (60_exceptions.md R302, R306), what a running command depends on (30_encoding.md R95), and the rational
value of a binary64 number. -/

namespace Sys2Proof.Machine

/-- The value of a finite binary64 number; 0 stands for the others, which no statement reads. -/
def Fl.toRat : Fl → ℚ
  | .fin neg m e => (if neg then -1 else 1) * (m : ℚ) * (2 : ℚ) ^ e
  | .inf _ => 0
  | .nan _ _ => 0

/-- The finite binary64 numbers, each in its one form: zero and subnormal, or normal. -/
def Fl.IsBinary64 : Fl → Prop
  | .fin _ m e => (m < 2 ^ 52 ∧ e = -1074) ∨ (2 ^ 52 ≤ m ∧ m < 2 ^ 53 ∧ -1074 ≤ e ∧ e ≤ 971)
  | .inf _ => False
  | .nan _ _ => False

/-- The significand's last bit of a finite number is 0. -/
def Fl.EvenSignificand : Fl → Prop
  | .fin _ m _ => m % 2 = 0
  | .inf _ => False
  | .nan _ _ => False

/-- `r` is `x` rounded to binary64, to nearest with ties to even (00_scope.md R12): no binary64 number is nearer, and one as
near is `r` itself or leaves `r` with an even significand. -/
def Fl.NearestTo (r : Fl) (x : ℚ) : Prop :=
  r.IsBinary64 ∧
    ∀ y : Fl, y.IsBinary64 →
      |r.toRat - x| ≤ |y.toRat - x| ∧ (|r.toRat - x| = |y.toRat - x| → y.toRat = r.toRat ∨ r.EvenSignificand)

/-- Where rounding to nearest overflows to an infinity: half a unit past the largest finite number. -/
def Fl.overflowBound : ℚ := (2 ^ 54 - 1 : ℚ) * 2 ^ (970 : ℤ)

/-- `r` is the binary64 result of an operation whose exact result is the rational `x`: the nearest number, or past the
overflow bound an infinity of `x`'s sign. -/
def Fl.RoundsTo (r : Fl) (x : ℚ) : Prop :=
  (|x| < Fl.overflowBound → r.NearestTo x) ∧ (Fl.overflowBound ≤ |x| → r = .inf (decide (x < 0)))

/-- `lo <= v <= hi` of a CAL_* register's integer. -/
def InRange (lo hi : Int) (w : Word) : Prop := lo ≤ w.toInt ∧ w.toInt ≤ hi

/-- The ranges of 10_state.md R32. -/
def CalRange (p : NarrowSext) (c : CalibrationSet) : Prop :=
  InRange 0 65535 c.temp.t1 ∧ InRange (-32768) 32767 c.temp.t2 ∧ InRange (-32768) 32767 c.temp.t3 ∧
  InRange 0 65535 c.press.p1 ∧
  (∀ w ∈ [c.press.p2, c.press.p3, c.press.p4, c.press.p5, c.press.p6, c.press.p7, c.press.p8, c.press.p9],
    InRange (-32768) 32767 w) ∧
  InRange 0 255 c.hum.h1 ∧ InRange (-32768) 32767 c.hum.h2 ∧ InRange 0 255 c.hum.h3 ∧
  match p with
  | .fieldWidth => InRange (-2048) 2047 c.hum.h4 ∧ InRange (-2048) 2047 c.hum.h5 ∧ InRange (-128) 127 c.hum.h6
  | .rule16 => InRange 0 4095 c.hum.h4 ∧ InRange 0 4095 c.hum.h5 ∧ InRange 0 255 c.hum.h6

/-- A humidity that is not above 100.0 and not below 0.0 (10_state.md R38, 41_compensation.md R180). -/
def HumInRange (w : Word) : Prop :=
  (Fl.ofInt 100).lt (Fl.ofBits w) = false ∧ (Fl.ofBits w).lt (Fl.ofInt 0) = false

/-- A COMP whose humidity is clamped as 41_compensation.md R179 asks. -/
def Comp.Clamps (C : Comp) : Prop :=
  ∀ (adcH : BitVec 16) (fine : Word) (c : HumCoeffs), HumInRange (C.humidity adcH fine c).1

/-- A transaction as the port shows it: a block read asks for 1 to 255 bytes (20_memory.md R63), and an OK response has exactly
the bytes asked for (R66). -/
def BusRecord.Conforms (r : BusRecord) : Prop :=
  (∀ (dev reg : Byte) (n : BitVec 8), r.txn = .rdBlock dev reg n → n ≠ 0) ∧
  ∀ b : List Byte, r.resp = some (.ok b) → b.length = r.txn.replyLen

/-- How many bytes a command has staged when `k` of its transactions are done (30_encoding.md R100). -/
def stagedBytes : Instr → List Nat
  | .nop => [0]
  | .climInit => [0, 0, 0, 0, 24, 25, 32]
  | .climSample => [0, 8]
  | .gasInit => [0, 0, 0]
  | .gasReady => [0, 1]
  | .gasComp => [0, 0]
  | .gasCompOpnd => [0, 0]
  | .gasCompClim => [0, 0]
  | .gasUpdate => [0, 1, 9]
  | .gasSample => [0, 1, 9]

/-- While a command runs, `step` counts its finished transactions and `buf` holds exactly their bytes (10_state.md R40); an
update is past its status byte only if that byte said data ready (30_encoding.md R101); an illegal word has done nothing. -/
def StagedOk (s : State) : Prop :=
  match decode s.seq.cmd with
  | .ok i =>
    (stagedBytes i)[s.seq.step]? = some s.seq.buf.length ∧
    (0 < s.seq.step → precheckOf i s = .ok) ∧
    ((i = .gasUpdate ∨ i = .gasSample) → s.seq.step = 2 → dataReady (byteAt s.seq.buf 0) = true)
  | .error _ => s.seq.step = 0 ∧ s.seq.buf = []

/-- The invariant of the machine. -/
structure State.Inv (s : State) : Prop where
  /-- CMD holds the running command's word, and DONE is 0 while it runs (10_state.md R22, R23) -/
  latched : s.seq.phase = .run → s.seq.cmd = s.cmd ∧ s.done = false
  /-- the staging buffer matches the schedule -/
  staged : s.seq.phase = .run → StagedOk s
  /-- 10_state.md R32 -/
  calRange : CalRange s.params.narrowSext s.climate.cal
  /-- before CLIM.INIT the climate unit is as after reset (10_state.md R34) -/
  uncalibrated : s.climate.calValid = false → s.climate = ClimateUnit.reset
  /-- a sample is committed only in CALIBRATED, and pressure only with a sample (10_state.md R23) -/
  valids : (s.climate.pValid = true → s.climate.thValid = true) ∧ (s.climate.thValid = true → s.climate.calValid = true)
  /-- the outputs are cleared until a sample (10_state.md R27, R30) -/
  unsampled : s.climate.thValid = false →
    s.climate.tempC = 0 ∧ s.climate.humPct = 0 ∧ s.climate.fine = 0 ∧ s.climate.raw = { adcP := 0, adcT := 0, adcH := 0 }
  /-- PRESS_HPA is cleared until a sample writes it (10_state.md R27) -/
  noPressure : s.climate.pValid = false → s.climate.pressHpa = 0
  /-- 10_state.md R38, for the default COMP and for every other that clamps (93_implementation_defined.md U12) -/
  humRange : s.params.comp = .default ∨ s.params.comp.functions.Clamps → HumInRange s.climate.humPct
  /-- 10_state.md R38 and 41_compensation.md R174, R180 for the default COMP: FINE and TEMP_C are finite, and HUM_PCT is a finite
  number from 0 to 100 (93_implementation_defined.md U14) -/
  finite : s.params.comp = .default →
    (Fl.ofBits s.climate.fine).IsBinary64 ∧ (Fl.ofBits s.climate.tempC).IsBinary64 ∧
    (Fl.ofBits s.climate.humPct).IsBinary64 ∧
    0 ≤ (Fl.ofBits s.climate.humPct).toRat ∧ (Fl.ofBits s.climate.humPct).toRat ≤ 100
  /-- before GAS.INIT the gas unit is as after reset (10_state.md R35) -/
  gasUninit : s.gas.st = .uninit → s.gas = GasUnit.reset
  /-- the only reachable drive codes (10_state.md R36) -/
  drive : s.gas.st ≠ .uninit → s.gas.drive = 0b001
  /-- 10_state.md R38 -/
  eco2 : if s.gas.eco2Valid then 400 < s.gas.eco2.toNat ∧ s.gas.eco2.toNat < 8192 else s.gas.eco2 = 0
  /-- 10_state.md R38 -/
  tvoc : if s.gas.tvocValid then 0 < s.gas.tvoc.toNat ∧ s.gas.tvoc.toNat < 1187 else s.gas.tvoc = 0
  /-- 20_memory.md R63, R66 -/
  port : ∀ r ∈ s.env.busLog, r.Conforms

/-- The commands of the climate unit (30_encoding.md R91). -/
def isClimateCommand : Instr → Bool
  | .climInit => true
  | .climSample => true
  | .nop => false
  | .gasInit => false
  | .gasReady => false
  | .gasComp => false
  | .gasCompOpnd => false
  | .gasCompClim => false
  | .gasUpdate => false
  | .gasSample => false

/-- The error codes a command can end with (60_exceptions.md R302). -/
def mayEndWith : Instr → List ErrCode
  | .nop => [.ok]
  | .climInit => [.ok, .transport]
  | .climSample => [.ok, .notInit, .transport]
  | .gasInit => [.ok, .transport]
  | .gasReady => [.ok, .notInit, .transport]
  | .gasComp => [.ok, .notInit, .transport]
  | .gasCompOpnd => [.ok, .notInit, .transport, .envRange]
  | .gasCompClim => [.ok, .notInit, .transport, .envRange, .noClimate]
  | .gasUpdate => [.ok, .notInit, .transport]
  | .gasSample => [.ok, .notInit, .transport]

/-- The sets of events a command can raise when it completes with ERR = OK (60_exceptions.md R306). -/
def mayRaise : Instr → List (BitVec 11)
  | .nop => [0]
  | .climInit => [0]
  | .climSample =>
    [0, evPSkip, evPDivGuard].flatMap fun p => [0, evHDivGuard, evHClampHi, evHClampLo].map fun h => p ||| h
  | .gasInit => [0]
  | .gasReady => [0]
  | .gasComp => [0]
  | .gasCompOpnd => [0]
  | .gasCompClim => [0]
  | .gasUpdate => [evGasNoData, 0, evEco2Reject, evTvocReject, evEco2Reject ||| evTvocReject]
  | .gasSample => [evGasNoData, 0, evEco2Reject, evTvocReject, evEco2Reject ||| evTvocReject]

/-- Two states agree on everything a running command may depend on: the sequencer with its latches, the units, the parameters
and the transport's coming responses (30_encoding.md R95). They may differ in CMD, DONE, ERR, EVENTS, CONFIG, ENV_H_IN,
ENV_T_IN, the pending turns and what was recorded. -/
structure SameCommandView (s t : State) : Prop where
  seq     : s.seq = t.seq
  climate : s.climate = t.climate
  gas     : s.gas = t.gas
  params  : s.params = t.params
  answers : s.env.answers = t.env.answers
  draws   : s.env.draws = t.env.draws

/-- The next pending turn is the reset input. -/
def State.resetNext (s : State) : Bool :=
  match s.env.turns with
  | .reset _ :: _ => true
  | _ => false

end Sys2Proof.Machine
end

