-- ==== Sys2Proof/Certificates/Slice0/Obligations.lean ====
section
/-! DEFINITION. The statements for the provers. In the statements about one command, `s.seq.step` past the schedule's last
transaction is the point where the command completes (30_encoding.md R98). -/

open Sys2Proof Sys2Proof.Machine

/-! ### Encoding -/

/-- 30_encoding.md R90, R91, R93: decoding an encoded command gives it back, and a command has no other word. -/
def Obligations.DecodeInvertsEncode : Prop :=
  (∀ i : Instr, decode (encode i) = .ok i) ∧ (∀ (w : Word) (i : Instr), decode w = .ok i → w = encode i)

/-- 30_encoding.md R93, the whole decode function on the fields, and its count: "Exactly 10 of the 2^64 words decode to a
command". -/
def Obligations.DecodeFollowsFields : Prop :=
  ∀ w : Word,
    let opc := w.toNat % 256
    let src := w.toNat / 256 % 4
    let rsvd := w.toNat / 1024
    (rsvd ≠ 0 → ∃ r, decode w = .error r) ∧
    (rsvd = 0 → opc = 0x12 → src = 3 → ∃ r, decode w = .error r) ∧
    (rsvd = 0 → opc = 0x12 → src = 0 → decode w = .ok .gasComp) ∧
    (rsvd = 0 → opc = 0x12 → src = 1 → decode w = .ok .gasCompOpnd) ∧
    (rsvd = 0 → opc = 0x12 → src = 2 → decode w = .ok .gasCompClim) ∧
    (rsvd = 0 → opc ≠ 0x12 → src ≠ 0 → ∃ r, decode w = .error r) ∧
    (rsvd = 0 → src = 0 → opc = 0x00 → decode w = .ok .nop) ∧
    (rsvd = 0 → src = 0 → opc = 0x01 → decode w = .ok .climInit) ∧
    (rsvd = 0 → src = 0 → opc = 0x02 → decode w = .ok .climSample) ∧
    (rsvd = 0 → src = 0 → opc = 0x10 → decode w = .ok .gasInit) ∧
    (rsvd = 0 → src = 0 → opc = 0x11 → decode w = .ok .gasReady) ∧
    (rsvd = 0 → src = 0 → opc = 0x13 → decode w = .ok .gasUpdate) ∧
    (rsvd = 0 → src = 0 → opc = 0x14 → decode w = .ok .gasSample) ∧
    (rsvd = 0 → src = 0 → opc ∉ [0x00, 0x01, 0x02, 0x10, 0x11, 0x12, 0x13, 0x14] → ∃ r, decode w = .error r) ∧
    ((∃ i, decode w = .ok i) ↔
      w ∈ ([0x0, 0x1, 0x2, 0x10, 0x11, 0x12, 0x112, 0x212, 0x13, 0x14] : List Word))

/-- Words of 95_test_vectors.md V1. -/
def Obligations.SpecWordsDecode : Prop :=
  decode 0x0 = .ok .nop ∧ decode 0x2 = .ok .climSample ∧ decode 0x212 = .ok .gasCompClim ∧ decode 0x14 = .ok .gasSample ∧
  (∃ r, decode 0x312 = .error r) ∧ (∃ r, decode 0x101 = .error r) ∧ (∃ r, decode 0x8000000000000002 = .error r)

/-! ### A step -/

/-- 30_encoding.md R98: when the sequencer moves and its latched word decodes to `i`, the step is `exec` of `i` on the state
the sequencer moves from (the state itself, or the state with its `sequencer` turn used up). -/
def Obligations.StepRunsDecodedCommand : Prop :=
  ∀ (s t : State) (i : Instr),
    s.sequencerView = some t → t.seq.phase = .run → decode t.seq.cmd = .ok i → step s = exec i t

/-- 30_encoding.md R94: any word that decodes to ILLEGAL, issued and run, completes with ERR = ILLEGAL and CMD_ERR; nothing
else changes but CMD and the latches, the environment (so the bus log) is untouched, and CMD reads back the word. Every word
but the ten of the opcode map is such a word. -/
def Obligations.IllegalWordCompletesWithIllegal : Prop :=
  (∀ (s : State) (w : Word) (r : DecodeReject),
    decode w = .error r →
      ∃ t : State,
        runSequencer (issue w s) = .next t ∧
        t = { s with
              cmd := w
              done := true
              err := .illegal
              events := s.events ||| 0x200
              seq := { phase := .idle, cmd := w, cfg := s.config, envH := s.envHIn, envT := s.envTIn, step := 0, buf := [] } } ∧
        readReg 0x00 t = w ∧ t.status.getLsbD 0 = false ∧ t.status.getLsbD 1 = true ∧ t.status.extractLsb' 4 4 = 1) ∧
  (∀ w : Word, (∃ r, decode w = .error r) ↔
    w ∉ ([0x0, 0x1, 0x2, 0x10, 0x11, 0x12, 0x112, 0x212, 0x13, 0x14] : List Word))

/-- 70_reset_and_hazards.md R356, R357: with no other agent's turn pending, a running command, legal or not, is over within seven
sequencer steps and has made at most six transactions. That every transaction gets a response, in the step that issues it, is
built into the model (60_exceptions.md R319, log 5). -/
def Obligations.CommandEndsWithinSevenSteps : Prop :=
  ∀ s : State, s.seq.phase = .run → s.env.turns = [] →
    ∃ k ≤ 7, ∃ t : State,
      Host.Core.run Sys2Proof.core k s = .next t ∧ t.seq.phase = .idle ∧ t.done = true ∧
      t.env.busLog.length ≤ s.env.busLog.length + 6

/-! ### Host access -/

/-- 44_host_access.md R272: a CMD write while IDLE issues the word, whatever it is. -/
def Obligations.CmdWriteWhileIdleIssues : Prop :=
  ∀ (s : State) (w : Word) (rest : List Turn),
    s.env.turns = .wr 0x00 w :: rest → s.seq.phase = .idle →
      ∃ t : State,
        step s = .next t ∧
        t = { s with
              cmd := w
              done := false
              seq := { phase := .run, cmd := w, cfg := s.config, envH := s.envHIn, envT := s.envTIn, step := 0, buf := [] }
              env := { s.env with turns := rest } } ∧
        readReg 0x00 t = w ∧ t.status.getLsbD 0 = true ∧ t.status.getLsbD 1 = false

/-- 44_host_access.md R273: a CMD write while RUN is dropped and sets OVERRUN. -/
def Obligations.CmdWriteWhileBusyIsDropped : Prop :=
  ∀ (s : State) (w : Word) (rest : List Turn),
    s.env.turns = .wr 0x00 w :: rest → s.seq.phase = .run →
      step s = .next { s with events := s.events ||| 0x400, env := { s.env with turns := rest } }

/-- 44_host_access.md R276: a write to EVENTS, at any time, clears the bits written 1 and nothing else; a completion that sets a
bit and a write that clears it leave the bit as the later of the two says. -/
def Obligations.EventsWriteClearsOnes : Prop :=
  (∀ (s : State) (v : Word) (rest : List Turn),
    s.env.turns = .wr 0x02 v :: rest →
      ∃ t : State,
        step s = .next t ∧
        (∀ k : Nat, k < 11 → t.events.getLsbD k = (s.events.getLsbD k && !v.getLsbD k)) ∧
        t = { s with events := t.events, env := { s.env with turns := rest } }) ∧
  (∀ (s : State) (e : ErrCode) (w : Effects) (v : Word) (k : Nat),
    k < 11 → v.getLsbD k = true → (w.events ||| e.event).getLsbD k = true →
      (hostWrite 0x02 v (complete e w s)).events.getLsbD k = false ∧
      (complete e w (hostWrite 0x02 v s)).events.getLsbD k = true)

/-- 44_host_access.md R274: CONFIG takes bits [15:0] at any time; a running command keeps its latched addresses; the next issue
latches the new ones. -/
def Obligations.ConfigWriteTakesLowSixteenBits : Prop :=
  ∀ (s : State) (v : Word) (rest : List Turn),
    s.env.turns = .wr 0x03 v :: rest →
      ∃ t : State,
        step s = .next t ∧
        t = { s with config := t.config, env := { s.env with turns := rest } } ∧
        (readReg 0x03 t).toNat = v.toNat % 65536 ∧
        ∀ w : Word, (issue w t).seq.cfg.climateAddr.toNat = v.toNat % 256 ∧
          (issue w t).seq.cfg.gasAddr.toNat = v.toNat / 256 % 256

/-- 44_host_access.md R275: ENV_H_IN and ENV_T_IN take any 64-bit pattern at any time; a running command keeps the values it
latched. -/
def Obligations.EnvInputWritesReplace : Prop :=
  ∀ (s : State) (v : Word) (rest : List Turn),
    (s.env.turns = .wr 0x04 v :: rest → step s = .next { s with envHIn := v, env := { s.env with turns := rest } }) ∧
    (s.env.turns = .wr 0x05 v :: rest → step s = .next { s with envTIn := v, env := { s.env with turns := rest } })

/-- 44_host_access.md R277: a write to a read-only register or a reserved index changes nothing and raises nothing. -/
def Obligations.ReadOnlyAndReservedWritesIgnored : Prop :=
  ∀ (s : State) (i : BitVec 6) (v : Word) (rest : List Turn),
    s.env.turns = .wr i v :: rest → i ∉ ([0x00, 0x02, 0x03, 0x04, 0x05] : List (BitVec 6)) →
      step s = .next { s with env := { s.env with turns := rest } }

/-- 44_host_access.md R271: a read returns the register's value as it stands and has no side effect, BUSY or not; a reserved
index returns 0. That the value is shown in `readLog` is the model's choice (log 15). -/
def Obligations.HostReadReturnsValueWithoutEffect : Prop :=
  ∀ (s : State) (i : BitVec 6) (rest : List Turn),
    s.env.turns = .rd i :: rest →
      step s = .next { s with env := { s.env with turns := rest, readLog := s.env.readLog ++ [(i, readReg i s)] } } ∧
      (i.toNat ∈ [0x06, 0x07, 0x11, 0x12, 0x13] ∨ 0x26 ≤ i.toNat → readReg i s = 0)

/-- 10_state.md R21, R25, R28 to R32: what each index of the register file holds, all 18 calibration registers among them. The
reserved indices are in `HostReadReturnsValueWithoutEffect`. -/
def Obligations.RegisterMapHoldsUnitRegisters : Prop :=
  ∀ s : State,
    readReg 0x00 s = s.cmd ∧ readReg 0x01 s = s.status ∧ (readReg 0x02 s).toNat = s.events.toNat ∧
    (readReg 0x03 s).toNat = s.config.climateAddr.toNat + 256 * s.config.gasAddr.toNat ∧
    readReg 0x04 s = s.envHIn ∧ readReg 0x05 s = s.envTIn ∧
    readReg 0x08 s = s.climate.tempC ∧ readReg 0x09 s = s.climate.pressHpa ∧ readReg 0x0A s = s.climate.humPct ∧
    readReg 0x0B s = s.climate.fine ∧
    (readReg 0x0C s).toNat = s.gas.eco2.toNat ∧ (readReg 0x0D s).toNat = s.gas.tvoc.toNat ∧
    (readReg 0x0E s).toNat = s.gas.humWord.toNat + 65536 * s.gas.tempWord.toNat ∧
    (readReg 0x0F s).toNat =
      s.climate.raw.adcP.toNat + 2 ^ 20 * s.climate.raw.adcT.toNat + 2 ^ 40 * s.climate.raw.adcH.toNat ∧
    readReg 0x10 s = s.gas.result ∧
    readReg 0x14 s = s.climate.cal.temp.t1 ∧ readReg 0x15 s = s.climate.cal.temp.t2 ∧
    readReg 0x16 s = s.climate.cal.temp.t3 ∧
    readReg 0x17 s = s.climate.cal.press.p1 ∧ readReg 0x18 s = s.climate.cal.press.p2 ∧
    readReg 0x19 s = s.climate.cal.press.p3 ∧ readReg 0x1A s = s.climate.cal.press.p4 ∧
    readReg 0x1B s = s.climate.cal.press.p5 ∧ readReg 0x1C s = s.climate.cal.press.p6 ∧
    readReg 0x1D s = s.climate.cal.press.p7 ∧ readReg 0x1E s = s.climate.cal.press.p8 ∧
    readReg 0x1F s = s.climate.cal.press.p9 ∧
    readReg 0x20 s = s.climate.cal.hum.h1 ∧ readReg 0x21 s = s.climate.cal.hum.h2 ∧
    readReg 0x22 s = s.climate.cal.hum.h3 ∧ readReg 0x23 s = s.climate.cal.hum.h4 ∧
    readReg 0x24 s = s.climate.cal.hum.h5 ∧ readReg 0x25 s = s.climate.cal.hum.h6

/-- 10_state.md R23, R35, R36 and 60_exceptions.md R301: every field of STATUS at its bits, the numbers of the error codes and of
the gas unit's states, and every other bit 0. -/
def Obligations.StatusShowsEachField : Prop :=
  ∀ s : State,
    s.status.getLsbD 0 = decide (s.seq.phase = .run) ∧ s.status.getLsbD 1 = s.done ∧
    s.status.extractLsb' 2 2 = 0 ∧
    (s.status.extractLsb' 4 4).toNat = (match s.err with
      | .ok => 0
      | .illegal => 1
      | .notInit => 2
      | .transport => 3
      | .envRange => 4
      | .noClimate => 5) ∧
    s.status.getLsbD 8 = s.climate.calValid ∧
    (s.status.extractLsb' 9 2).toNat = (match s.gas.st with
      | .uninit => 0
      | .booted => 1
      | .dataNotReady => 2
      | .dataReady => 3) ∧
    s.status.getLsbD 11 = s.gas.ready ∧ s.status.extractLsb' 12 3 = s.gas.drive ∧ s.status.getLsbD 15 = false ∧
    s.status.getLsbD 16 = s.climate.pValid ∧ s.status.getLsbD 17 = s.climate.thValid ∧
    s.status.getLsbD 18 = s.gas.eco2Valid ∧ s.status.getLsbD 19 = s.gas.tvocValid ∧ s.status.extractLsb' 20 44 = 0

/-! ### Reset -/

/-- 10_state.md R42, 70_reset_and_hazards.md R341: what a host reads from every index after reset, and the phase. The last clause,
that the machine waits in IDLE (R341), is said of the model's surroundings at reset: that no turn is pending there and that the
sequencer then moves are the model's choice (log 6, log 14, log 16). -/
def Obligations.ResetHoldsSpecValues : Prop :=
  (∀ i : BitVec 6,
    readReg i State.reset =
      if i = 0x03 then 0x5B77 else if i = 0x04 then 0x4049000000000000 else if i = 0x05 then 0x4039000000000000 else 0) ∧
  State.reset.seq.phase = .idle ∧ step State.reset = .next State.reset

/-- 70_reset_and_hazards.md R340, R342, R343: the reset input, whatever runs, gives the reset registers with no trace of the
command. That the sequencer's hidden fields but `phase` are then zero or empty, which the spec leaves open (10_state.md R40,
93_implementation_defined.md U4), is the model's choice (log 1). That the parameters and the surroundings stay, and that the
turn says whether a transaction was on the port, is the model's choice too (log 8): then the port has shown it without a
response, and its response is used up. -/
def Obligations.ResetInputAbandonsRunningCommand : Prop :=
  ∀ (s : State) (f : Bool) (rest : List Turn),
    s.env.turns = .reset f :: rest →
      ∃ t : State,
        step s = .next t ∧ t = { State.reset with params := s.params, env := t.env } ∧
        t.env.turns = rest ∧ t.env.readLog = s.env.readLog ∧
        (f = true → ∀ x, pendingTxn s = some x →
          t.env.busLog = s.env.busLog ++ [{ txn := x, resp := none }] ∧ t.env.answers = s.env.answers.tail) ∧
        (f = false ∨ pendingTxn s = none → t.env = { s.env with turns := rest })

/-! ### The execution template -/

/-- 30_encoding.md R99: the precheck of each command, and ILLEGAL before any of them. -/
def Obligations.PrecheckReportsFirstFailure : Prop :=
  (∀ (s : State) (r : DecodeReject), s.seq.phase = .run → decode s.seq.cmd = .error r →
    ∃ t, runSequencer s = .next t ∧ t.err = .illegal) ∧
  ∀ s : State,
    precheckOf .nop s = .ok ∧ precheckOf .climInit s = .ok ∧ precheckOf .gasInit s = .ok ∧
    (precheckOf .climSample s = if s.climate.calValid = false then .notInit else .ok) ∧
    (∀ i ∈ [Instr.gasReady, .gasUpdate, .gasSample],
      precheckOf i s = if s.gas.st = .uninit then .notInit else .ok) ∧
    (precheckOf .gasComp s =
      if s.gas.st = .uninit then .notInit
      else if encEnv s.params.roundTies 0x4049000000000000 0x4039000000000000 = none then .envRange else .ok) ∧
    (precheckOf .gasCompOpnd s =
      if s.gas.st = .uninit then .notInit
      else if encEnv s.params.roundTies s.seq.envH s.seq.envT = none then .envRange else .ok) ∧
    (precheckOf .gasCompClim s =
      if s.gas.st = .uninit then .notInit
      else if s.climate.thValid = false then .noClimate
      else if encEnv s.params.roundTies s.climate.humPct s.climate.tempC = none then .envRange else .ok)

/-- 60_exceptions.md R300 for the errors the precheck finds: no transaction, no unit register written, the code and CMD_ERR,
and the sequencer back in IDLE. -/
def Obligations.PrecheckErrorEndsCommand : Prop :=
  ∀ (i : Instr) (s : State), precheckOf i s ≠ .ok →
    exec i s = .next
      { s with
        err := precheckOf i s
        done := true
        events := s.events ||| 0x200
        seq := { s.seq with phase := .idle } }

/-- 30_encoding.md R100: the schedule of every command; the bytes CLIM.INIT and GAS.INIT write. -/
def Obligations.SchedulesFollowTable : Prop :=
  ∀ s : State,
    let ca := s.seq.cfg.climateAddr
    let ga := s.seq.cfg.gasAddr
    scheduleOf .nop s = [] ∧
    scheduleOf .climInit s =
      [.wrByte ca 0xF2 0x01, .wrByte ca 0xF4 0x57, .wrByte ca 0xF5 0x10, .rdBlock ca 0x88 24, .rdByte ca 0xA1,
       .rdBlock ca 0xE1 7] ∧
    scheduleOf .climSample s = [.rdBlock ca 0xF7 8] ∧
    scheduleOf .gasInit s = [.wrBlock ga 0xF4 0 #v[], .wrByte ga 0x01 0x10] ∧
    scheduleOf .gasReady s = [.rdByte ga 0x00] ∧
    (∀ (i : Instr) (h t : Word) (hw tw : BitVec 16),
      (i, h, t) ∈ [(Instr.gasComp, (0x4049000000000000 : Word), (0x4039000000000000 : Word)),
                   (.gasCompOpnd, s.seq.envH, s.seq.envT), (.gasCompClim, s.climate.humPct, s.climate.tempC)] →
      encEnv s.params.roundTies h t = some (hw, tw) →
      scheduleOf i s =
        [.wrBlock ga 0x05 4
          #v[BitVec.ofNat 8 (hw.toNat / 256), BitVec.ofNat 8 hw.toNat, BitVec.ofNat 8 (tw.toNat / 256),
             BitVec.ofNat 8 tw.toNat]]) ∧
    (∀ i ∈ [Instr.gasUpdate, .gasSample],
      scheduleOf i s =
        if (byteAt s.seq.buf 0).getLsbD 3 then [.rdByte ga 0x00, .rdBlock ga 0x02 8] else [.rdByte ga 0x00])

/-- 30_encoding.md R98, 20_memory.md R67: the pending transaction is issued once, and an OK response stages its bytes and moves
`step` on; no register changes. -/
def Obligations.TransactionStagesResponseBytes : Prop :=
  ∀ (i : Instr) (s : State) (t : Transaction) (b : List Byte),
    precheckOf i s = .ok → nextTxnOf i s = some t → s.answer t = .ok b →
      exec i s = .next
        { s with
          seq := { s.seq with buf := s.seq.buf ++ b, step := s.seq.step + 1 }
          env := { s.env with
            answers := s.env.answers.tail
            draws := s.env.draws + 1
            busLog := s.env.busLog ++ [{ txn := t, resp := some (.ok b) }] } }

/-- 20_memory.md R66: a response is OK with exactly the bytes asked for, or FAIL; one of another length is taken as FAIL. That the
scripted responses come first is the model's choice (log 4). -/
def Obligations.ResponsesHaveExactLength : Prop :=
  ∀ (s : State) (t : Transaction),
    (∀ (b : List Byte) (rest : List BusResponse), s.env.answers = .ok b :: rest →
      s.answer t =
        if b.length = (match t with
          | .rdByte _ _ => 1
          | .rdBlock _ _ n => n.toNat
          | .wrByte _ _ _ => 0
          | .wrBlock _ _ _ _ => 0) then .ok b else .fail) ∧
    (∀ rest : List BusResponse, s.env.answers = .fail :: rest → s.answer t = .fail) ∧
    (s.answer t = .fail ∨ ∃ b, s.answer t = .ok b ∧ b.length = t.replyLen)

/-- 30_encoding.md R102: a FAIL ends the command at once with TRANSPORT; no unit register is written; what was on the bus stays. -/
def Obligations.FailedTransactionEndsCommand : Prop :=
  ∀ (i : Instr) (s : State) (t : Transaction),
    precheckOf i s = .ok → nextTxnOf i s = some t → s.answer t = .fail →
      exec i s = .next
        { s with
          err := .transport
          done := true
          events := s.events ||| 0x100
          seq := { s.seq with phase := .idle }
          env := { s.env with
            answers := s.env.answers.tail
            draws := s.env.draws + 1
            busLog := s.env.busLog ++ [{ txn := t, resp := some .fail }] } }

/-- 30_encoding.md R103, over every step that is not the reset input: unit registers change only at a completion with
ERR = OK, all at once. -/
def Obligations.UnitRegistersChangeOnlyAtCompletion : Prop :=
  ∀ s t : State, step s = .next t → s.resetNext = false →
    (t.climate = s.climate ∧ t.gas = s.gas) ∨
    (s.seq.phase = .run ∧ t.seq.phase = .idle ∧ t.err = .ok ∧ t.done = true)

/-- 30_encoding.md R104: what a completion writes. -/
def Obligations.CompletionWritesStatusAndEvents : Prop :=
  ∀ (e : ErrCode) (w : Effects) (s : State),
    let t := complete e w s
    t.climate = w.climate ∧ t.gas = w.gas ∧ t.err = e ∧ t.done = true ∧ t.seq = { s.seq with phase := .idle } ∧
    (∀ k : Nat, k < 11 →
      (t.events.getLsbD k = true ↔
        s.events.getLsbD k = true ∨ w.events.getLsbD k = true ∨ (k = 8 ∧ e = .transport) ∨
        (k = 9 ∧ e ∈ [ErrCode.illegal, .notInit, .envRange, .noClimate]))) ∧
    t.cmd = s.cmd ∧ t.config = s.config ∧ t.envHIn = s.envHIn ∧ t.envTIn = s.envTIn ∧ t.params = s.params ∧ t.env = s.env

/-- 60_exceptions.md R302, R306, 30_encoding.md R104: the codes each command can end with; the events a completion adds are those of the command when ERR = OK, and
TRANSPORT_ERR or CMD_ERR alone otherwise; while the command runs on, none. -/
def Obligations.CommandsEndWithListedCodesAndEvents : Prop :=
  ∀ (i : Instr) (s t : State), s.seq.phase = .run → exec i s = .next t →
    (t.seq.phase = .idle → t.err ∈ mayEndWith i) ∧
    (t.seq.phase = .run → t.events = s.events ∧ t.err = s.err ∧ t.done = s.done) ∧
    (t.seq.phase = .idle → t.err = .ok → ∃ x ∈ mayRaise i, t.events = s.events ||| x) ∧
    (t.seq.phase = .idle → t.err = .transport → t.events = s.events ||| 0x100) ∧
    (t.seq.phase = .idle → t.err ≠ .ok → t.err ≠ .transport → t.events = s.events ||| 0x200)

/-- 10_state.md R24: over every step, an event bit falls only by a host write of 1 to it or by reset; OVERRUN rises only by a CMD
write while RUN (60_exceptions.md R307), and every other bit only at a completion (30_encoding.md R104). -/
def Obligations.EventBitsFallOnlyByHostOrReset : Prop :=
  ∀ (s t : State) (k : Nat), step s = .next t → k < 11 →
    (s.events.getLsbD k = true → t.events.getLsbD k = false →
      (∃ v rest, s.env.turns = .wr 0x02 v :: rest ∧ v.getLsbD k = true) ∨ s.resetNext = true) ∧
    (s.events.getLsbD 10 = false → t.events.getLsbD 10 = true →
      ∃ w rest, s.env.turns = .wr 0x00 w :: rest ∧ s.seq.phase = .run) ∧
    (k < 10 → s.events.getLsbD k = false → t.events.getLsbD k = true →
      s.seq.phase = .run ∧ t.seq.phase = .idle ∧ t.done = true)

/-! ### Frames -/

/-- 30_encoding.md R95, R103, R104: no command changes CMD, CONFIG, ENV_H_IN, ENV_T_IN, the latches, the parameters, the pending
turns or what the host has read; and `step`, `buf` and the bus log only grow. Of the unit it writes, CLIM.SAMPLE leaves the
calibration (10_state.md R39), GAS.READY all but GAS_READY (43_gas_commands.md R235), the GAS.COMP commands all but ENV_WORDS
(R243), an update GAS_DRIVE and ENV_WORDS (R246, R248). -/
def Obligations.CommandsLeaveTheirFrame : Prop :=
  (∀ (i : Instr) (s t : State), exec i s = .next t →
    t.cmd = s.cmd ∧ t.config = s.config ∧ t.envHIn = s.envHIn ∧ t.envTIn = s.envTIn ∧ t.params = s.params ∧
    t.seq.cmd = s.seq.cmd ∧ t.seq.cfg = s.seq.cfg ∧ t.seq.envH = s.seq.envH ∧ t.seq.envT = s.seq.envT ∧
    t.env.turns = s.env.turns ∧ t.env.readLog = s.env.readLog ∧
    s.seq.step ≤ t.seq.step ∧ s.seq.buf <+: t.seq.buf ∧ s.env.busLog <+: t.env.busLog) ∧
  (∀ s t : State,
    (exec .climSample s = .next t → t.climate.cal = s.climate.cal ∧ t.climate.calValid = s.climate.calValid) ∧
    (exec .gasReady s = .next t → t.gas = { s.gas with ready := t.gas.ready }) ∧
    (∀ i ∈ [Instr.gasComp, .gasCompOpnd, .gasCompClim], exec i s = .next t →
      t.gas = { s.gas with humWord := t.gas.humWord, tempWord := t.gas.tempWord }) ∧
    (∀ i ∈ [Instr.gasUpdate, .gasSample], exec i s = .next t →
      t.gas.drive = s.gas.drive ∧ t.gas.humWord = s.gas.humWord ∧ t.gas.tempWord = s.gas.tempWord))

/-- 43_gas_commands.md R257, both halves: what a command of one unit writes and reads of the other. NOP writes neither. -/
def Obligations.UnitsAreIndependent : Prop :=
  (∀ (i : Instr) (s t : State), exec i s = .next t →
    (isClimateCommand i = true → t.gas = s.gas) ∧ (isClimateCommand i = false → t.climate = s.climate) ∧
    (i = .nop → t.gas = s.gas)) ∧
  (∀ (i : Instr) (s t : State) (g : GasUnit), isClimateCommand i = true → exec i s = .next t →
    exec i { s with gas := g } = .next { t with gas := g }) ∧
  (∀ (i : Instr) (s t : State) (u : ClimateUnit), isClimateCommand i = false → i ≠ .gasCompClim → exec i s = .next t →
    exec i { s with climate := u } = .next { t with climate := u }) ∧
  (∀ (s t : State) (u : ClimateUnit),
    u.humPct = s.climate.humPct → u.tempC = s.climate.tempC → u.thValid = s.climate.thValid →
    exec .gasCompClim s = .next t → exec .gasCompClim { s with climate := u } = .next { t with climate := u })

/-- 10_state.md R39: over every step that is not the reset input, calibration changes only at the completion of a running
CLIM.INIT. -/
def Obligations.CalibrationChangesOnlyByClimInit : Prop :=
  ∀ s t : State, step s = .next t → s.resetNext = false →
    (t.climate.cal = s.climate.cal ∧ t.climate.calValid = s.climate.calValid) ∨
    (s.seq.phase = .run ∧ decode s.seq.cmd = .ok .climInit ∧ t.seq.phase = .idle ∧ t.done = true ∧ t.err = .ok ∧
      t.climate.calValid = true)

/-! ### Climate commands -/

/-- 42_climate_commands.md R200: NOP completes with OK and no event and changes nothing else; a word with OPC 0x00 and a nonzero
bit above is ILLEGAL. -/
def Obligations.NopOnlyCompletes : Prop :=
  (∀ s : State, exec .nop s = .next { s with done := true, err := .ok, seq := { s.seq with phase := .idle } }) ∧
  encode .nop = 0 ∧
  (∀ w : Word, w.toNat % 256 = 0 → w ≠ 0 → ∃ r, decode w = .error r) ∧
  (∀ s : State, s.seq.phase = .run → hostWrite 0x00 (encode .nop) s = { s with events := s.events ||| 0x400 })

/-- 42_climate_commands.md R206: CLIM.INIT's commit when its six transactions are done. -/
def Obligations.ClimInitCommitsCalibration : Prop :=
  ∀ s : State, 6 ≤ s.seq.step →
    exec .climInit s = .next
      { s with
        climate :=
          { cal := unpackCal s.params.narrowSext s.seq.buf, calValid := true, tempC := 0, pressHpa := 0, humPct := 0,
            fine := 0, raw := { adcP := 0, adcT := 0, adcH := 0 }, pValid := false, thValid := false }
        done := true
        err := .ok
        seq := { s.seq with phase := .idle } }

/-- 42_climate_commands.md R209, R212 with the COMP of the run (10_state.md R44), which by default is the functions of
41_compensation.md R173, R175, R178: CLIM.SAMPLE's commit when its burst is staged, on the three pressure paths (raw pressure
implausible, divisor zero, computed). How a run names another COMP is the model's choice (log 3). -/
def Obligations.ClimSampleCommitsSample : Prop :=
  ∀ s : State, s.climate.calValid = true → 1 ≤ s.seq.step →
    let u := s.climate
    let raw := unpackRaw s.seq.buf
    let C := s.params.comp.functions
    let ft := C.temperature raw.adcT u.cal.temp
    let h := C.humidity raw.adcH ft.1 u.cal.hum
    let hev : BitVec 11 := match h.2 with
      | .none => 0x000
      | .divGuard => 0x004
      | .clampHi => 0x008
      | .clampLo => 0x010
    (s.params.comp = .default → C.temperature = compT ∧ C.pressure = compP ∧ C.humidity = compH) ∧
    (0x80000 ≤ raw.adcP.toNat →
      exec .climSample s = .next
        { s with
          climate := { u with raw := raw, fine := ft.1, tempC := ft.2, humPct := h.1, thValid := true }
          done := true, err := .ok, events := s.events ||| (0x001 ||| hev), seq := { s.seq with phase := .idle } }) ∧
    (raw.adcP.toNat < 0x80000 → C.pressure raw.adcP ft.1 u.cal.press = none →
      exec .climSample s = .next
        { s with
          climate := { u with raw := raw, fine := ft.1, tempC := ft.2, humPct := h.1, thValid := true,
                              pressHpa := 0, pValid := true }
          done := true, err := .ok, events := s.events ||| (0x002 ||| hev), seq := { s.seq with phase := .idle } }) ∧
    (∀ p : Word, raw.adcP.toNat < 0x80000 → C.pressure raw.adcP ft.1 u.cal.press = some p →
      exec .climSample s = .next
        { s with
          climate := { u with raw := raw, fine := ft.1, tempC := ft.2, humPct := h.1, thValid := true,
                              pressHpa := toHectopascal p, pValid := true }
          done := true, err := .ok, events := s.events ||| hev, seq := { s.seq with phase := .idle } })

/-- 40_datapath.md R150, 60_exceptions.md R311 under ANY compensation functions: a raw pressure of 0x80000 or more leaves
PRESS_HPA and P_VALID, raises P_SKIP and not P_DIVGUARD, and still commits the same burst's temperature and humidity. The
command runs with the COMP of the run. -/
def Obligations.PressureGateHoldsForAnyComp : Prop :=
  (∀ s : State, exec .climSample s = .next (climSampleWith s.params.comp.functions s)) ∧
  ∀ (C : Comp) (s : State), s.climate.calValid = true → 1 ≤ s.seq.step →
    0x80000 ≤ (unpackRaw s.seq.buf).adcP.toNat →
      let t := climSampleWith C s
      t.climate.pressHpa = s.climate.pressHpa ∧ t.climate.pValid = s.climate.pValid ∧ t.climate.thValid = true ∧
      t.events.getLsbD 0 = true ∧ t.events.getLsbD 1 = s.events.getLsbD 1 ∧
      t.climate.tempC = (C.temperature (unpackRaw s.seq.buf).adcT s.climate.cal.temp).2 ∧
      t.climate.humPct =
        (C.humidity (unpackRaw s.seq.buf).adcH (C.temperature (unpackRaw s.seq.buf).adcT s.climate.cal.temp).1
          s.climate.cal.hum).1

/-- 42_climate_commands.md R203, R206, R209, 30_encoding.md R98, R100: CLIM.INIT and CLIM.SAMPLE from the host's CMD write to
their end, when every transaction succeeds and nobody else moves: the transactions to the latched address, in order, then the
commit for the bytes they returned. -/
def Obligations.ClimateCommandsRunToCompletion : Prop :=
  (∀ (s : State) (c1 c2 : List Byte) (b : Byte) (rest : List BusResponse),
    s.seq.phase = .idle → s.env.turns = [.wr 0x00 0x01] → c1.length = 24 → c2.length = 7 →
    s.env.answers = [.ok [], .ok [], .ok [], .ok c1, .ok [b], .ok c2] ++ rest →
      let ca := s.config.climateAddr
      Host.Core.run Sys2Proof.core 8 s = .next
        { s with
          cmd := 0x01
          done := true
          err := .ok
          climate := { ClimateUnit.reset with
            cal := unpackCal s.params.narrowSext (c1 ++ [b] ++ c2), calValid := true }
          seq := { phase := .idle, cmd := 0x01, cfg := s.config, envH := s.envHIn, envT := s.envTIn, step := 6,
                   buf := c1 ++ [b] ++ c2 }
          env := { s.env with
            turns := []
            answers := rest
            draws := s.env.draws + 6
            busLog := s.env.busLog ++
              [{ txn := .wrByte ca 0xF2 0x01, resp := some (.ok []) }, { txn := .wrByte ca 0xF4 0x57, resp := some (.ok []) },
               { txn := .wrByte ca 0xF5 0x10, resp := some (.ok []) }, { txn := .rdBlock ca 0x88 24, resp := some (.ok c1) },
               { txn := .rdByte ca 0xA1, resp := some (.ok [b]) }, { txn := .rdBlock ca 0xE1 7, resp := some (.ok c2) }] } }) ∧
  (∀ (s : State) (b : List Byte) (rest : List BusResponse),
    s.seq.phase = .idle → s.env.turns = [.wr 0x00 0x02] → b.length = 8 → s.climate.calValid = true →
    s.env.answers = .ok b :: rest →
      let last : State :=
        { s with
          cmd := 0x02
          seq := { phase := .run, cmd := 0x02, cfg := s.config, envH := s.envHIn, envT := s.envTIn, step := 1, buf := b }
          done := false
          env := { s.env with
            turns := []
            answers := rest
            draws := s.env.draws + 1
            busLog := s.env.busLog ++ [{ txn := .rdBlock s.config.climateAddr 0xF7 8, resp := some (.ok b) }] } }
      Host.Core.run Sys2Proof.core 3 s = .next (complete .ok (climSampleEffects s.params.comp.functions last) last))

/-! ### Gas commands -/

/-- 43_gas_commands.md R232: GAS.INIT's commit when its two writes are done. -/
def Obligations.GasInitCommitsBooted : Prop :=
  ∀ s : State, 2 ≤ s.seq.step →
    exec .gasInit s = .next
      { s with
        gas := { st := .booted, ready := false, drive := 0b001, eco2 := 0, tvoc := 0, eco2Valid := false,
                 tvocValid := false, humWord := 0, tempWord := 0, result := 0 }
        done := true
        err := .ok
        seq := { s.seq with phase := .idle } }

/-- 43_gas_commands.md R235: GAS.READY commits bit 3 of the status byte to GAS_READY, and only that. -/
def Obligations.GasReadyCommitsDataReadyBit : Prop :=
  ∀ (s : State) (sb : Byte), s.gas.st ≠ .uninit → 1 ≤ s.seq.step → s.seq.buf = [sb] →
    exec .gasReady s = .next
      { s with
        gas := { s.gas with ready := sb.getLsbD 3 }
        done := true
        err := .ok
        seq := { s.seq with phase := .idle } }

/-- 43_gas_commands.md R239: GAS.COMP always encodes; its block is [0x64, 0x00, 0x64, 0x00] under both tie rules, and its commit
is ENV_WORDS = 0x64006400 (R243). -/
def Obligations.DefaultCompensationAlwaysEncodes : Prop :=
  (∀ ties : RoundTies, encEnv ties 0x4049000000000000 0x4039000000000000 = some (0x6400, 0x6400)) ∧
  (∀ s : State, precheckOf .gasComp s ≠ .envRange ∧
    scheduleOf .gasComp s = [.wrBlock s.seq.cfg.gasAddr 0x05 4 #v[0x64, 0x00, 0x64, 0x00]]) ∧
  (∀ s : State, s.gas.st ≠ .uninit → 1 ≤ s.seq.step →
    exec .gasComp s = .next
      { s with
        gas := { s.gas with humWord := 0x6400, tempWord := 0x6400 }
        done := true
        err := .ok
        seq := { s.seq with phase := .idle } })

/-- 43_gas_commands.md R243 with R240, R241: GAS.COMP.OPND commits the two words of the operands latched at issue, GAS.COMP.CLIM
those of HUM_PCT and TEMP_C, to ENV_WORDS. -/
def Obligations.CompensationCommitsEnvWords : Prop :=
  ∀ (s : State) (hw tw : BitVec 16), s.gas.st ≠ .uninit → 1 ≤ s.seq.step →
    let t : State :=
      { s with
        gas := { s.gas with humWord := hw, tempWord := tw }
        done := true
        err := .ok
        seq := { s.seq with phase := .idle } }
    (encEnv s.params.roundTies s.seq.envH s.seq.envT = some (hw, tw) → exec .gasCompOpnd s = .next t) ∧
    (s.climate.thValid = true → encEnv s.params.roundTies s.climate.humPct s.climate.tempC = some (hw, tw) →
      exec .gasCompClim s = .next t)

/-- 43_gas_commands.md R246 and R250: an update, by GAS.UPDATE or GAS.SAMPLE, whose status byte has bit 3 clear. -/
def Obligations.UpdateWithoutDataKeepsReadings : Prop :=
  ∀ (s : State) (sb : Byte), s.gas.st ≠ .uninit → 1 ≤ s.seq.step → s.seq.buf = [sb] → sb.getLsbD 3 = false →
    let t : State :=
      { s with
        gas := { s.gas with st := .dataNotReady, ready := false }
        done := true
        err := .ok
        events := s.events ||| 0x080
        seq := { s.seq with phase := .idle } }
    exec .gasUpdate s = .next t ∧ exec .gasSample s = .next t

/-- 43_gas_commands.md R248 and R250: an update, by GAS.UPDATE or GAS.SAMPLE, that read the result block: each value is committed
if it lies strictly in its range and else rejected by its event, whatever the other is. -/
def Obligations.UpdateWithDataJudgesEachReading : Prop :=
  ∀ (s : State) (sb r0 r1 r2 r3 r4 r5 r6 r7 : Byte),
    s.gas.st ≠ .uninit → 2 ≤ s.seq.step → s.seq.buf = [sb, r0, r1, r2, r3, r4, r5, r6, r7] → sb.getLsbD 3 = true →
    let eco2 := 256 * r0.toNat + r1.toNat
    let tvoc := 256 * r2.toNat + r3.toNat
    let eOk : Prop := 400 < eco2 ∧ eco2 < 8192
    let tOk : Prop := 0 < tvoc ∧ tvoc < 1187
    ∃ t : State,
      exec .gasUpdate s = .next t ∧ exec .gasSample s = .next t ∧
      t.gas.st = .dataReady ∧ t.gas.ready = true ∧ t.gas.result = r0 ++ r1 ++ r2 ++ r3 ++ r4 ++ r5 ++ r6 ++ r7 ∧
      (eOk → t.gas.eco2.toNat = eco2 ∧ t.gas.eco2Valid = true) ∧
      (¬eOk → t.gas.eco2 = s.gas.eco2 ∧ t.gas.eco2Valid = s.gas.eco2Valid) ∧
      (tOk → t.gas.tvoc.toNat = tvoc ∧ t.gas.tvocValid = true) ∧
      (¬tOk → t.gas.tvoc = s.gas.tvoc ∧ t.gas.tvocValid = s.gas.tvocValid) ∧
      t.gas.drive = s.gas.drive ∧ t.gas.humWord = s.gas.humWord ∧ t.gas.tempWord = s.gas.tempWord ∧
      (t.events.getLsbD 5 = true ↔ s.events.getLsbD 5 = true ∨ ¬eOk) ∧
      (t.events.getLsbD 6 = true ↔ s.events.getLsbD 6 = true ∨ ¬tOk) ∧
      (∀ k : Nat, k ≠ 5 → k ≠ 6 → t.events.getLsbD k = s.events.getLsbD k) ∧
      t = { s with gas := t.gas, events := t.events, done := true, err := .ok, seq := { s.seq with phase := .idle } }

/-- 43_gas_commands.md R255: GAS_ST over every step: what the OK completion of every command leaves it at, and that nothing else
but reset moves it (a change means an OK completion, so an error or a step of a command that runs on leaves it). -/
def Obligations.GasStateMovesOnlyAsTabled : Prop :=
  (∀ s t : State, step s = .next t → s.resetNext = true → t.gas.st = .uninit) ∧
  (∀ s t : State, step s = .next t → s.resetNext = false → t.gas.st ≠ s.gas.st →
    s.seq.phase = .run ∧ t.seq.phase = .idle ∧ t.err = .ok ∧
    ∃ i, decode s.seq.cmd = .ok i ∧
      ((i = .gasInit ∧ t.gas.st = .booted) ∨
       ((i = .gasUpdate ∨ i = .gasSample) ∧ s.gas.st ≠ .uninit ∧
          t.gas.st = if (byteAt s.seq.buf 0).getLsbD 3 then .dataReady else .dataNotReady))) ∧
  (∀ (s t : State) (i : Instr), step s = .next t → s.resetNext = false → s.seq.phase = .run → decode s.seq.cmd = .ok i →
    t.seq.phase = .idle → t.err = .ok →
      t.gas.st = match i with
        | .gasInit => .booted
        | .gasUpdate | .gasSample => if (byteAt s.seq.buf 0).getLsbD 3 then .dataReady else .dataNotReady
        | .nop | .climInit | .climSample | .gasReady | .gasComp | .gasCompOpnd | .gasCompClim => s.gas.st) ∧
  (∀ (i : Instr) (s t : State), exec i s = .next t → s.gas.st = .uninit →
    i ∈ [Instr.gasReady, .gasComp, .gasCompOpnd, .gasCompClim, .gasUpdate, .gasSample] →
      t.err = .notInit ∧ t.gas.st = .uninit)

/-- 43_gas_commands.md R230, R232, R234, 30_encoding.md R98, R100: GAS.INIT and GAS.READY from the host's CMD write to their end. -/
def Obligations.GasInitAndReadyRunToCompletion : Prop :=
  (∀ (s : State) (rest : List BusResponse),
    s.seq.phase = .idle → s.env.turns = [.wr 0x00 0x10] → s.env.answers = .ok [] :: .ok [] :: rest →
      Host.Core.run Sys2Proof.core 4 s = .next
        { s with
          cmd := 0x10
          done := true
          err := .ok
          gas := { GasUnit.reset with st := .booted, drive := 0b001 }
          seq := { phase := .idle, cmd := 0x10, cfg := s.config, envH := s.envHIn, envT := s.envTIn, step := 2, buf := [] }
          env := { s.env with
            turns := []
            answers := rest
            draws := s.env.draws + 2
            busLog := s.env.busLog ++
              [{ txn := .wrBlock s.config.gasAddr 0xF4 0 #v[], resp := some (.ok []) },
               { txn := .wrByte s.config.gasAddr 0x01 0x10, resp := some (.ok []) }] } }) ∧
  (∀ (s : State) (sb : Byte) (rest : List BusResponse),
    s.seq.phase = .idle → s.gas.st ≠ .uninit → s.env.turns = [.wr 0x00 0x11] → s.env.answers = .ok [sb] :: rest →
      Host.Core.run Sys2Proof.core 3 s = .next
        { s with
          cmd := 0x11
          done := true
          err := .ok
          gas := { s.gas with ready := sb.getLsbD 3 }
          seq := { phase := .idle, cmd := 0x11, cfg := s.config, envH := s.envHIn, envT := s.envTIn, step := 1, buf := [sb] }
          env := { s.env with
            turns := []
            answers := rest
            draws := s.env.draws + 1
            busLog := s.env.busLog ++ [{ txn := .rdByte s.config.gasAddr 0x00, resp := some (.ok [sb]) }] } })

/-- 43_gas_commands.md R238 to R243, R240: the three compensation commands from the host's CMD write to their end: one 4-byte write
of the two words, big-endian, to register 0x05, then ENV_WORDS. -/
def Obligations.CompensationRunsToCompletion : Prop :=
  ∀ (s : State) (i : Instr) (h t : Word) (hw tw : BitVec 16) (rest : List BusResponse),
    (i, h, t) ∈ [(Instr.gasComp, (0x4049000000000000 : Word), (0x4039000000000000 : Word)),
                 (.gasCompOpnd, s.envHIn, s.envTIn), (.gasCompClim, s.climate.humPct, s.climate.tempC)] →
    s.seq.phase = .idle → s.gas.st ≠ .uninit → (i = .gasCompClim → s.climate.thValid = true) →
    encEnv s.params.roundTies h t = some (hw, tw) →
    s.env.turns = [.wr 0x00 (encode i)] → s.env.answers = .ok [] :: rest →
      Host.Core.run Sys2Proof.core 3 s = .next
        { s with
          cmd := encode i
          done := true
          err := .ok
          gas := { s.gas with humWord := hw, tempWord := tw }
          seq := { phase := .idle, cmd := encode i, cfg := s.config, envH := s.envHIn, envT := s.envTIn, step := 1, buf := [] }
          env := { s.env with
            turns := []
            answers := rest
            draws := s.env.draws + 1
            busLog := s.env.busLog ++
              [{ txn := .wrBlock s.config.gasAddr 0x05 4
                  #v[BitVec.ofNat 8 (hw.toNat / 256), BitVec.ofNat 8 hw.toNat, BitVec.ofNat 8 (tw.toNat / 256),
                     BitVec.ofNat 8 tw.toNat],
                 resp := some (.ok []) }] } }

/-- 43_gas_commands.md R244, R250, 30_encoding.md R101: GAS.UPDATE and GAS.SAMPLE from the host's CMD write to their end: one
transaction when the status byte says not ready, two when it says ready, then the commit. -/
def Obligations.UpdatesRunToCompletion : Prop :=
  ∀ (s : State) (i : Instr) (sb : Byte) (rest : List BusResponse),
    (i = .gasUpdate ∨ i = .gasSample) → s.seq.phase = .idle → s.gas.st ≠ .uninit → s.env.turns = [.wr 0x00 (encode i)] →
    (sb.getLsbD 3 = false → s.env.answers = .ok [sb] :: rest →
      Host.Core.run Sys2Proof.core 3 s = .next
        { s with
          cmd := encode i
          done := true
          err := .ok
          events := s.events ||| 0x080
          gas := { s.gas with st := .dataNotReady, ready := false }
          seq := { phase := .idle, cmd := encode i, cfg := s.config, envH := s.envHIn, envT := s.envTIn, step := 1,
                   buf := [sb] }
          env := { s.env with
            turns := []
            answers := rest
            draws := s.env.draws + 1
            busLog := s.env.busLog ++ [{ txn := .rdByte s.config.gasAddr 0x00, resp := some (.ok [sb]) }] } }) ∧
    (∀ r : List Byte, sb.getLsbD 3 = true → r.length = 8 → s.env.answers = .ok [sb] :: .ok r :: rest →
      ∃ t : State,
        Host.Core.run Sys2Proof.core 4 s = .next t ∧ t.seq.phase = .idle ∧ t.done = true ∧ t.err = .ok ∧
        t.cmd = encode i ∧ t.climate = s.climate ∧
        t.gas = (dataEffects r s).gas ∧ t.events = s.events ||| (dataEffects r s).events ∧
        t.env.answers = rest ∧
        t.env.busLog = s.env.busLog ++
          [{ txn := .rdByte s.config.gasAddr 0x00, resp := some (.ok [sb]) },
           { txn := .rdBlock s.config.gasAddr 0x02 8, resp := some (.ok r) }])

/-! ### What a running command depends on -/

/-- 30_encoding.md R95, 44_host_access.md R274, R275 (92_eei_decisions.md D39): a step of a running command does not depend on
CMD, CONFIG, ENV_H_IN, ENV_T_IN, EVENTS, DONE, ERR, the pending turns or the logs: both runs put the same transactions on the
port with the same responses, raise the same events and end with the same code. -/
def Obligations.RunningCommandIgnoresHostRegisters : Prop :=
  ∀ (i : Instr) (s t s' t' : State),
    SameCommandView s t → exec i s = .next s' → exec i t = .next t' →
      SameCommandView s' t' ∧
      (∃ (L : List BusRecord) (x : BitVec 11),
        s'.env.busLog = s.env.busLog ++ L ∧ t'.env.busLog = t.env.busLog ++ L ∧
        s'.events = s.events ||| x ∧ t'.events = t.events ||| x) ∧
      (s.seq.phase = .run → s'.seq.phase = .idle → s'.err = t'.err ∧ s'.done = t'.done)

/-- 30_encoding.md R95, R103: while a command keeps running, its precheck does not change, whatever the host does in between.
So testing it at each step (log 7) tests it before any transaction. -/
def Obligations.PrecheckIsStableWhileRunning : Prop :=
  ∀ (i : Instr) (s t : State),
    s.seq.phase = .run → step s = .next t → t.seq.phase = .run → s.resetNext = false →
      precheckOf i t = precheckOf i s ∧ t.seq.cmd = s.seq.cmd

/-! ### Datapath -/

/-- 40_datapath.md R130 (with R131 as its 16-bit case): the sign-extender at its three widths. -/
def Obligations.SignExtenderSubtractsPowerOfTwo : Prop :=
  ∀ n ∈ [8, 12, 16], ∀ v : BitVec n,
    (sext v).toInt = (if v.getLsbD (n - 1) then (v.toNat : Int) - 2 ^ n else v.toNat) ∧
    -(2 ^ (n - 1) : Int) ≤ (sext v).toInt ∧ (sext v).toInt ≤ 2 ^ (n - 1) - 1

/-- 40_datapath.md R140: the raw-sample unpacker; and R141: the unused nibbles do not matter. -/
def Obligations.RawUnpackerFollowsRule : Prop :=
  ∀ (b0 b1 b2 b3 b4 b5 b6 b7 : Byte),
    let r := unpackRaw [b0, b1, b2, b3, b4, b5, b6, b7]
    r.adcP.toNat = b0.toNat * 2 ^ 12 + b1.toNat * 2 ^ 4 + b2.toNat / 16 ∧
    r.adcT.toNat = b3.toNat * 2 ^ 12 + b4.toNat * 2 ^ 4 + b5.toNat / 16 ∧
    r.adcH.toNat = b6.toNat * 2 ^ 8 + b7.toNat

/-- 40_datapath.md R133, R134 (content the spec takes from general knowledge): the byte map of the calibration registers under
both values of NARROW_SEXT. -/
def Obligations.CalibrationUnpackerFollowsByteMap : Prop :=
  ∀ (p : NarrowSext) (c : List Byte), c.length = 32 →
    let b (k : Nat) : Int := ((c.getD k 0).toNat : Int)
    let le (k : Nat) : Int := b (k + 1) * 256 + b k
    let sx (n : Nat) (v : Int) : Int := if 2 ^ (n - 1) ≤ v then v - 2 ^ n else v
    let nx (n : Nat) (v : Int) : Int := if p = .fieldWidth then sx n v else v
    let u := unpackCal p c
    u.temp.t1.toInt = le 0 ∧ u.temp.t2.toInt = sx 16 (le 2) ∧ u.temp.t3.toInt = sx 16 (le 4) ∧
    u.press.p1.toInt = le 6 ∧ u.press.p2.toInt = sx 16 (le 8) ∧ u.press.p3.toInt = sx 16 (le 10) ∧
    u.press.p4.toInt = sx 16 (le 12) ∧ u.press.p5.toInt = sx 16 (le 14) ∧ u.press.p6.toInt = sx 16 (le 16) ∧
    u.press.p7.toInt = sx 16 (le 18) ∧ u.press.p8.toInt = sx 16 (le 20) ∧ u.press.p9.toInt = sx 16 (le 22) ∧
    u.hum.h1.toInt = b 24 ∧ u.hum.h2.toInt = sx 16 (le 25) ∧ u.hum.h3.toInt = b 27 ∧
    u.hum.h4.toInt = nx 12 (b 28 * 16 + b 29 % 16) ∧ u.hum.h5.toInt = nx 12 (b 30 * 16 + b 29 / 16) ∧
    u.hum.h6.toInt = nx 8 (b 31)

/-- 40_datapath.md R155: `roundInt` of a finite number is a nearest integer; at an exact tie the even one or the one of larger
magnitude, as ROUND_TIES says. -/
def Obligations.RoundIntIsNearestWithTieRule : Prop :=
  ∀ (ties : RoundTies) (neg : Bool) (m : Nat) (e : Int),
    let x := (Fl.fin neg m e).toRat
    ∃ r : Int,
      (Fl.fin neg m e).roundInt ties = some r ∧ |(r : ℚ) - x| ≤ 1 / 2 ∧
      (|(r : ℚ) - x| = 1 / 2 → match ties with
        | .even => r % 2 = 0
        | .away => |x| < |(r : ℚ)|)

/-- 40_datapath.md R157: the environment encoder accepts exactly when both scaled values are finite and round into 0..0xFFFF, and
then its block is the two words, humidity first, high byte first. -/
def Obligations.EnvEncoderAcceptsExactlyTheWordRange : Prop :=
  ∀ (ties : RoundTies) (h t : Word) (hw tw : BitVec 16),
    (encEnv ties h t = some (hw, tw) ↔
      ((Fl.ofBits h).mul (Fl.ofInt 512)).roundInt ties = some (hw.toNat : Int) ∧
      (((Fl.ofBits t).add (Fl.ofInt 25)).mul (Fl.ofInt 512)).roundInt ties = some (tw.toNat : Int)) ∧
    (envBytes hw tw).toList.map BitVec.toNat = [hw.toNat / 256, hw.toNat % 256, tw.toNat / 256, tw.toNat % 256]

/-- 41_compensation.md R179, 10_state.md R38 with the default COMP: whatever the raw humidity, the fine temperature and the
coefficients, the result is neither above 100.0 nor below 0.0; each event goes with its value. -/
def Obligations.HumidityIsClamped : Prop :=
  ∀ (adcH : BitVec 16) (fine : Word) (c : HumCoeffs),
    let r := compH adcH fine c
    let h := (Fl.ofBits fine).sub (Fl.ofInt 76800)
    HumInRange r.1 ∧
    (h.isZero = true → r = (0, .divGuard)) ∧
    (h.isZero = false → (Fl.ofInt 100).lt (humRaw adcH h c) = true → r = (0x4059000000000000, .clampHi)) ∧
    (h.isZero = false → (humRaw adcH h c).lt (Fl.ofInt 0) = true → r = (0, .clampLo)) ∧
    (h.isZero = false → (Fl.ofInt 100).lt (humRaw adcH h c) = false → (humRaw adcH h c).lt (Fl.ofInt 0) = false →
      Fl.ofBits r.1 = humRaw adcH h c ∧ r.2 = .none)

/-- 41_compensation.md R174, R180, 10_state.md R38: with coefficients in the ranges of R32, fine and temperature are finite and
the committed humidity is a number in [0, 100]. -/
def Obligations.CompensatedSampleIsFinite : Prop :=
  ∀ (p : NarrowSext) (c : CalibrationSet) (adcT : BitVec 20) (adcH : BitVec 16), CalRange p c →
    let ft := compT adcT c.temp
    let r := compH adcH ft.1 c.hum
    (Fl.ofBits ft.1).IsBinary64 ∧ (Fl.ofBits ft.2).IsBinary64 ∧
    (Fl.ofBits r.1).IsBinary64 ∧ 0 ≤ (Fl.ofBits r.1).toRat ∧ (Fl.ofBits r.1).toRat ≤ 100

/-- 00_scope.md R12, 41_compensation.md R170: sum, product and quotient of finite numbers are the exact results rounded to nearest,
ties to even, with overflow to infinity; the conversion of an integer below 2^53 is exact; and the comparisons are those of the
numbers (so both zeros are equal), with the infinities at the ends and false where an operand is a NaN. -/
def Obligations.FloatOperationsRoundExactResults : Prop :=
  (∀ (a b : Bool) (m n : Nat) (e f : Int),
    let x := Fl.fin a m e
    let y := Fl.fin b n f
    (x.add y).RoundsTo (x.toRat + y.toRat) ∧ (x.sub y).RoundsTo (x.toRat - y.toRat) ∧
    (x.mul y).RoundsTo (x.toRat * y.toRat) ∧ (n ≠ 0 → (x.div y).RoundsTo (x.toRat / y.toRat))) ∧
  (∀ k : Int, k.natAbs < 2 ^ 53 → (Fl.ofInt k).IsBinary64 ∧ (Fl.ofInt k).toRat = k) ∧
  (∀ (a b : Bool) (m n : Nat) (e f : Int),
    let x := Fl.fin a m e
    let y := Fl.fin b n f
    (x.lt y = true ↔ x.toRat < y.toRat) ∧ (x.isZero = true ↔ x.toRat = 0)) ∧
  (∀ (a b : Bool) (m : Nat) (e : Int),
    (Fl.inf a).lt (.fin b m e) = a ∧ (Fl.fin b m e).lt (.inf a) = !a ∧ (Fl.inf a).lt (.inf b) = (a && !b) ∧
    (Fl.inf a).isZero = false) ∧
  (∀ (a : Bool) (fr : BitVec 52) (y : Fl),
    (Fl.nan a fr).lt y = false ∧ y.lt (.nan a fr) = false ∧ (Fl.nan a fr).isZero = false)

/-- 20_memory.md R74: the bit pattern of a binary64 number gives it back. -/
def Obligations.BitPatternsRoundTrip : Prop :=
  (∀ w : Word, (Fl.ofBits w).toBits = w) ∧ (∀ x : Fl, x.IsBinary64 → Fl.ofBits x.toBits = x)

/-! ### The invariant -/

/-- The invariant holds at reset. -/
def Obligations.ResetMeetsTheInvariant : Prop := State.reset.Inv

/-- Every step answers a next state (60_exceptions.md R319: no fault, no refusal, nothing stuck) and keeps the invariant:
10_state.md R32, R34, R35, R36, R38, R40 and, for the default COMP, 41_compensation.md R174, R180 hold after every step from a state that meets them. No step changes a parameter
(10_state.md R44), COMP among them. -/
def Obligations.EveryStepKeepsTheInvariant : Prop :=
  ∀ s : State, (∃ t : State, step s = .next t) ∧ (∀ t : State, step s = .next t → t.params = s.params) ∧
    (s.Inv → ∀ t : State, step s = .next t → t.Inv)

/-! ### Worked examples and the host program's lines -/

/-- 41_compensation.md R173, R175, R177, R178, by the parameters at reset (00_scope.md R8), on the reference calibration and burst of 95_test_vectors.md (V8.1): FINE, TEMP_C,
PRESS_HPA and HUM_PCT bit for bit. The formulas are the spec's general-knowledge default of COMP (log 3, log 21). -/
def Obligations.ReferenceSampleEvaluates : Prop :=
  let C := State.reset.params.comp.functions
  let c := unpackCal State.reset.params.narrowSext
    [0x70, 0x6B, 0x43, 0x67, 0x18, 0xFC, 0x7D, 0x8E, 0x43, 0xD6, 0xD0, 0x0B, 0x27, 0x0B, 0x8C, 0x00, 0xF9, 0xFF, 0x8C, 0x3C,
     0xF8, 0xC6, 0x70, 0x17, 0x4B, 0x6A, 0x01, 0x00, 0x13, 0x29, 0x03, 0x1E]
  let raw := unpackRaw [0x65, 0x5A, 0xC0, 0x7E, 0xED, 0x00, 0x6D, 0x60]
  C.temperature raw.adcT c.temp = (0x40FF5A6497936000, 0x4039151D460F8000) ∧
  (C.pressure raw.adcP 0x40FF5A6497936000 c.press).map toHectopascal = some 0x408F7442E7504A97 ∧
  C.humidity raw.adcH 0x40FF5A6497936000 c.hum = (0x4045EE012F8AFB86, .none)

/-! ### Waiting -/

/-- 70_reset_and_hazards.md R341, 30_encoding.md R98, R111: in every IDLE state the sequencer's turn, or no turn at all, changes
no register, and a host WAIT ends; while RUN a WAIT stays pending and the sequencer moves. How turns and waits are held is the
model's choice (log 6, log 9). -/
def Obligations.IdleMachineWaits : Prop :=
  ∀ (s : State) (rest : List Turn),
    (s.seq.phase = .idle → s.env.turns = [] → step s = .next s) ∧
    (s.seq.phase = .idle → s.env.turns = .sequencer :: rest ∨ s.env.turns = .wait :: rest →
      step s = .next { s with env := { s.env with turns := rest } }) ∧
    (s.seq.phase = .run → s.env.turns = .wait :: rest →
      step s = runSequencer s ∧ ∀ t : State, step s = .next t → t.env.turns = .wait :: rest)
end

