-- ==== Sys2Proof/Laws/Datapath.lean ====
section
/-! SUPPORT. The numbers behind the byte operations of Machine/Datapath.lean. -/

namespace Sys2Proof.Machine

/-- Two bytes side by side. -/
theorem byte_append_toNat (x y : Byte) : (x ++ y).toNat = 256 * x.toNat + y.toNat := by
  rw [BitVec.toNat_append, Nat.shiftLeft_eq, Nat.mul_comm, ← Nat.two_pow_add_eq_or_of_lt y.isLt]

/-- `be16` as a number (40_datapath.md R145). -/
theorem be16_toNat (x y : Byte) : (be16 x y).toNat = 256 * x.toNat + y.toNat := byte_append_toNat x y

/-- The extended field is the field's own signed number (40_datapath.md R130). -/
theorem sext_toInt {n : Nat} (h : n ≤ 64) (v : BitVec n) : (sext v).toInt = v.toInt := by
  rw [sext, BitVec.toInt_signExtend_of_le h]

/-- The zero-extended field is the field's own unsigned number. -/
theorem zext_toInt {n : Nat} (h : n < 64) (v : BitVec n) : (zext v).toInt = v.toNat := by
  have h1 := v.isLt
  have h2 : 2 ^ n ≤ 2 ^ 63 := Nat.pow_le_pow_right (by norm_num) (by omega)
  rw [zext, BitVec.toInt_eq_toNat_of_lt] <;> simp <;> omega

end Sys2Proof.Machine
end

