-- ==== Sys2Proof/Laws/Float.lean ====
section
/-! SUPPORT. What the rounding operations of Machine/Float.lean give: the rounded quotients, the packing, and that every
operation gives a binary64 number, an infinity or a NaN in its one form. -/

namespace Sys2Proof.Machine

/-- The number of bits bounds the number from above. -/
theorem Fl.lt_two_pow_bitLength (m : Nat) : m < 2 ^ Fl.bitLength m := by
  unfold Fl.bitLength
  split
  · simp_all
  · exact Nat.lt_log2_self

/-- And from below. -/
theorem Fl.two_pow_bitLength_le {m : Nat} (h : m ≠ 0) : 2 ^ (Fl.bitLength m - 1) ≤ m := by
  simpa [Fl.bitLength, h] using Nat.log2_self_le h

/-- Rounding to even gives the quotient or the next number, at most half a unit away. -/
theorem Fl.shiftEven_spec (m d : Nat) :
    (Fl.shiftEven m d = m / 2 ^ d ∧ 2 * (m % 2 ^ d) ≤ 2 ^ d) ∨
    (Fl.shiftEven m d = m / 2 ^ d + 1 ∧ 2 ^ d ≤ 2 * (m % 2 ^ d)) := by
  unfold Fl.shiftEven
  simp only
  split <;> omega

/-- At a tie the result is even. -/
theorem Fl.shiftEven_tie (m d : Nat) (h : 2 * (m % 2 ^ d) = 2 ^ d) : Fl.shiftEven m d % 2 = 0 := by
  unfold Fl.shiftEven
  simp only
  split <;> omega

/-- Rounding away gives the quotient or the next number, at most half a unit away, and the next one at a tie. -/
theorem Fl.shiftAway_spec (m d : Nat) :
    (Fl.shiftAway m d = m / 2 ^ d ∧ 2 * (m % 2 ^ d) < 2 ^ d) ∨
    (Fl.shiftAway m d = m / 2 ^ d + 1 ∧ 2 ^ d ≤ 2 * (m % 2 ^ d)) := by
  unfold Fl.shiftAway
  simp only
  split <;> omega

/-- Packing a significand of at most 2^53 gives a binary64 number or an infinity of its sign. -/
theorem Fl.pack_cases {neg : Bool} {k : Nat} {q : Int} (hk : k ≤ 2 ^ 53) (hq : -1074 ≤ q)
    (hn : 2 ^ 52 ≤ k ∨ q = -1074) :
    (Fl.pack neg k q).IsBinary64 ∨ Fl.pack neg k q = .inf neg := by
  unfold Fl.pack
  split
  · split
    · exact .inr rfl
    · exact .inl (.inr ⟨le_refl _, by norm_num, by omega, by omega⟩)
  · split
    · exact .inr rfl
    · left
      by_cases h : k < 2 ^ 52
      · exact .inl ⟨h, by omega⟩
      · exact .inr ⟨by omega, by omega, by omega, by omega⟩

/-- Rounding gives a binary64 number or an infinity of the sign (00_scope.md R12). -/
theorem Fl.round_cases (neg : Bool) (m : Nat) (e : Int) :
    (Fl.round neg m e).IsBinary64 ∨ Fl.round neg m e = .inf neg := by
  unfold Fl.round
  split
  · exact .inl (.inl ⟨by norm_num, rfl⟩)
  rename_i hm
  have hlt := Fl.lt_two_pow_bitLength m
  have hle := Fl.two_pow_bitLength_le hm
  have hb : 1 ≤ Fl.bitLength m := by unfold Fl.bitLength; simp [hm]
  unfold Fl.gridExp
  generalize Fl.bitLength m = b at *
  generalize hq : max ((b : Int) + e - 53) (-1074) = q
  simp only
  split
  · rename_i h
    obtain ⟨d, hd⟩ : ∃ d : Nat, (e - q).toNat = d := ⟨_, rfl⟩
    rw [hd]
    apply Fl.pack_cases
    · calc m * 2 ^ d ≤ 2 ^ b * 2 ^ d := by gcongr
        _ = 2 ^ (b + d) := by rw [pow_add]
        _ ≤ 2 ^ 53 := Nat.pow_le_pow_right (by norm_num) (by omega)
    · omega
    · by_cases hh : q = -1074
      · exact .inr hh
      · left
        calc 2 ^ 52 = 2 ^ (b - 1 + d) := by congr 1; omega
          _ = 2 ^ (b - 1) * 2 ^ d := by rw [pow_add]
          _ ≤ m * 2 ^ d := by gcongr
  · rename_i h
    obtain ⟨d, hd⟩ : ∃ d : Nat, (q - e).toNat = d := ⟨_, rfl⟩
    rw [hd]
    have hdpos : 0 < 2 ^ d := Nat.two_pow_pos d
    have h1 : m / 2 ^ d < 2 ^ 53 := by
      rw [Nat.div_lt_iff_lt_mul hdpos, ← pow_add]
      exact lt_of_lt_of_le hlt (Nat.pow_le_pow_right (by norm_num) (by omega))
    apply Fl.pack_cases
    · rcases Fl.shiftEven_spec m d with ⟨hs, _⟩ | ⟨hs, _⟩ <;> omega
    · omega
    · by_cases hh : q = -1074
      · exact .inr hh
      · left
        have h2 : 2 ^ 52 ≤ m / 2 ^ d := by
          rw [Nat.le_div_iff_mul_le hdpos, ← pow_add]
          exact le_trans (Nat.pow_le_pow_right (by norm_num) (by omega)) hle
        rcases Fl.shiftEven_spec m d with ⟨hs, _⟩ | ⟨hs, _⟩ <;> omega

/-- What an operation can give: a binary64 number, an infinity, or a NaN with a nonzero fraction. -/
def Fl.Proper : Fl → Prop
  | .nan _ fr => fr ≠ 0
  | .inf _ => True
  | .fin neg m e => (Fl.fin neg m e).IsBinary64

/-- A binary64 number is proper. -/
theorem Fl.IsBinary64.proper {x : Fl} (h : x.IsBinary64) : x.Proper := by
  cases x <;> simp_all [Fl.Proper, Fl.IsBinary64]

/-- A rounded number is proper. -/
theorem Fl.round_proper (neg : Bool) (m : Nat) (e : Int) : (Fl.round neg m e).Proper := by
  rcases Fl.round_cases neg m e with h | h
  · exact h.proper
  · rw [h]; trivial

/-- The NaN of an operation is a NaN. -/
theorem Fl.nanOf_proper (op : FloatOp) (x y : Fl) : (Fl.nanOf op x y).Proper := by
  simp only [Fl.nanOf, Fl.Proper]
  split
  · decide
  · assumption

/-- A zero is proper. -/
theorem Fl.zero_proper (neg : Bool) : (Fl.zero neg).Proper := .inl ⟨by norm_num, rfl⟩

/-- A sum is proper, whatever the operands. -/
theorem Fl.add_proper (x y : Fl) : (x.add y).Proper := by
  unfold Fl.add
  split
  · simp only
    split
    · exact Fl.zero_proper _
    · exact Fl.round_proper _ _ _
  · trivial
  · trivial
  · split
    · trivial
    · exact Fl.nanOf_proper _ _ _
  · exact Fl.nanOf_proper _ _ _
  · exact Fl.nanOf_proper _ _ _

/-- A product is proper, whatever the operands. -/
theorem Fl.mul_proper (x y : Fl) : (x.mul y).Proper := by
  unfold Fl.mul
  split
  · exact Fl.round_proper _ _ _
  · split
    · exact Fl.nanOf_proper _ _ _
    · trivial
  · split
    · exact Fl.nanOf_proper _ _ _
    · trivial
  · trivial
  · exact Fl.nanOf_proper _ _ _
  · exact Fl.nanOf_proper _ _ _

/-- A quotient is proper, whatever the operands. -/
theorem Fl.div_proper (x y : Fl) : (x.div y).Proper := by
  unfold Fl.div
  split
  · split
    · split
      · exact Fl.nanOf_proper _ _ _
      · trivial
    · exact Fl.round_proper _ _ _
  · trivial
  · exact Fl.zero_proper _
  · exact Fl.nanOf_proper _ _ _
  · exact Fl.nanOf_proper _ _ _
  · exact Fl.nanOf_proper _ _ _

/-- The pattern 0 is +0.0. -/
@[simp] theorem Fl.ofBits_zero : Fl.ofBits 0 = .fin false 0 (-1074) := by decide

/-- +0.0 is a binary64 number. -/
@[simp] theorem Fl.isBinary64_zero (neg : Bool) : (Fl.fin neg 0 (-1074)).IsBinary64 := .inl ⟨by norm_num, rfl⟩

/-- Both zeros are the number 0. -/
@[simp] theorem Fl.toRat_zero (neg : Bool) (e : Int) : (Fl.fin neg 0 e).toRat = 0 := by simp [Fl.toRat]

/-- A finite value as an integer on the grid of an exponent no greater than its own. -/
theorem Fl.toRat_eq_scaled (neg : Bool) (m : Nat) {e q : Int} (h : q ≤ e) :
    (Fl.fin neg m e).toRat = (Fl.scaled neg m e q : ℚ) * (2 : ℚ) ^ q := by
  obtain ⟨d, rfl⟩ : ∃ d : Nat, e = q + d := ⟨(e - q).toNat, by omega⟩
  simp only [Fl.toRat, Fl.scaled, zpow_add₀ (two_ne_zero' ℚ), add_sub_cancel_left, Int.toNat_natCast, zpow_natCast]
  split <;> push_cast <;> ring

/-- The value of a bit pattern is proper (20_memory.md R74). -/
theorem Fl.ofBits_proper (w : Word) : (Fl.ofBits w).Proper := by
  unfold Fl.ofBits
  simp only
  have h11 := (w.extractLsb' 52 11).isLt
  have h52 := (w.extractLsb' 0 52).isLt
  split
  · exact .inl ⟨h52, rfl⟩
  · split
    · split
      · trivial
      · assumption
    · exact .inr ⟨by omega, by omega, by omega, by omega⟩

end Sys2Proof.Machine
end

