-- ==== Sys2Proof/Laws/State.lean ====
section
/-! SUPPORT. One lemma per field of State per shared update, each true by unfolding the update once; and the fields of the small
records inside. -/

namespace Sys2Proof.Machine

/-! Using up a turn. -/

@[simp] theorem State.nextTurn_cmd (s : State) : s.nextTurn.cmd = s.cmd := rfl
@[simp] theorem State.nextTurn_done (s : State) : s.nextTurn.done = s.done := rfl
@[simp] theorem State.nextTurn_err (s : State) : s.nextTurn.err = s.err := rfl
@[simp] theorem State.nextTurn_events (s : State) : s.nextTurn.events = s.events := rfl
@[simp] theorem State.nextTurn_config (s : State) : s.nextTurn.config = s.config := rfl
@[simp] theorem State.nextTurn_envHIn (s : State) : s.nextTurn.envHIn = s.envHIn := rfl
@[simp] theorem State.nextTurn_envTIn (s : State) : s.nextTurn.envTIn = s.envTIn := rfl
@[simp] theorem State.nextTurn_climate (s : State) : s.nextTurn.climate = s.climate := rfl
@[simp] theorem State.nextTurn_gas (s : State) : s.nextTurn.gas = s.gas := rfl
@[simp] theorem State.nextTurn_seq (s : State) : s.nextTurn.seq = s.seq := rfl
@[simp] theorem State.nextTurn_params (s : State) : s.nextTurn.params = s.params := rfl
@[simp] theorem State.nextTurn_env (s : State) : s.nextTurn.env = { s.env with turns := s.env.turns.tail } := rfl

/-! Recording a transaction. -/

@[simp] theorem State.logBus_cmd (t : Transaction) (r : Option BusResponse) (s : State) : (s.logBus t r).cmd = s.cmd := rfl
@[simp] theorem State.logBus_done (t : Transaction) (r : Option BusResponse) (s : State) :
    (s.logBus t r).done = s.done := rfl
@[simp] theorem State.logBus_err (t : Transaction) (r : Option BusResponse) (s : State) : (s.logBus t r).err = s.err := rfl
@[simp] theorem State.logBus_events (t : Transaction) (r : Option BusResponse) (s : State) :
    (s.logBus t r).events = s.events := rfl
@[simp] theorem State.logBus_config (t : Transaction) (r : Option BusResponse) (s : State) :
    (s.logBus t r).config = s.config := rfl
@[simp] theorem State.logBus_envHIn (t : Transaction) (r : Option BusResponse) (s : State) :
    (s.logBus t r).envHIn = s.envHIn := rfl
@[simp] theorem State.logBus_envTIn (t : Transaction) (r : Option BusResponse) (s : State) :
    (s.logBus t r).envTIn = s.envTIn := rfl
@[simp] theorem State.logBus_climate (t : Transaction) (r : Option BusResponse) (s : State) :
    (s.logBus t r).climate = s.climate := rfl
@[simp] theorem State.logBus_gas (t : Transaction) (r : Option BusResponse) (s : State) : (s.logBus t r).gas = s.gas := rfl
@[simp] theorem State.logBus_seq (t : Transaction) (r : Option BusResponse) (s : State) : (s.logBus t r).seq = s.seq := rfl
@[simp] theorem State.logBus_params (t : Transaction) (r : Option BusResponse) (s : State) :
    (s.logBus t r).params = s.params := rfl
@[simp] theorem State.logBus_env (t : Transaction) (r : Option BusResponse) (s : State) :
    (s.logBus t r).env = { s.env.consume with busLog := s.env.busLog ++ [{ txn := t, resp := r }] } := rfl

/-! Completion (30_encoding.md R104). -/

@[simp] theorem complete_cmd (e : ErrCode) (w : Effects) (s : State) : (complete e w s).cmd = s.cmd := rfl
@[simp] theorem complete_done (e : ErrCode) (w : Effects) (s : State) : (complete e w s).done = true := rfl
@[simp] theorem complete_err (e : ErrCode) (w : Effects) (s : State) : (complete e w s).err = e := rfl
@[simp] theorem complete_events (e : ErrCode) (w : Effects) (s : State) :
    (complete e w s).events = s.events ||| w.events ||| e.event := rfl
@[simp] theorem complete_config (e : ErrCode) (w : Effects) (s : State) : (complete e w s).config = s.config := rfl
@[simp] theorem complete_envHIn (e : ErrCode) (w : Effects) (s : State) : (complete e w s).envHIn = s.envHIn := rfl
@[simp] theorem complete_envTIn (e : ErrCode) (w : Effects) (s : State) : (complete e w s).envTIn = s.envTIn := rfl
@[simp] theorem complete_climate (e : ErrCode) (w : Effects) (s : State) : (complete e w s).climate = w.climate := rfl
@[simp] theorem complete_gas (e : ErrCode) (w : Effects) (s : State) : (complete e w s).gas = w.gas := rfl
@[simp] theorem complete_seq (e : ErrCode) (w : Effects) (s : State) :
    (complete e w s).seq = { s.seq with phase := .idle } := rfl
@[simp] theorem complete_params (e : ErrCode) (w : Effects) (s : State) : (complete e w s).params = s.params := rfl
@[simp] theorem complete_env (e : ErrCode) (w : Effects) (s : State) : (complete e w s).env = s.env := rfl

/-! An error (60_exceptions.md R300). -/

@[simp] theorem raiseErr_cmd (e : ErrCode) (s : State) : (raiseErr e s).cmd = s.cmd := rfl
@[simp] theorem raiseErr_done (e : ErrCode) (s : State) : (raiseErr e s).done = true := rfl
@[simp] theorem raiseErr_err (e : ErrCode) (s : State) : (raiseErr e s).err = e := rfl
@[simp] theorem raiseErr_events (e : ErrCode) (s : State) : (raiseErr e s).events = s.events ||| 0 ||| e.event := rfl
@[simp] theorem raiseErr_config (e : ErrCode) (s : State) : (raiseErr e s).config = s.config := rfl
@[simp] theorem raiseErr_envHIn (e : ErrCode) (s : State) : (raiseErr e s).envHIn = s.envHIn := rfl
@[simp] theorem raiseErr_envTIn (e : ErrCode) (s : State) : (raiseErr e s).envTIn = s.envTIn := rfl
@[simp] theorem raiseErr_climate (e : ErrCode) (s : State) : (raiseErr e s).climate = s.climate := rfl
@[simp] theorem raiseErr_gas (e : ErrCode) (s : State) : (raiseErr e s).gas = s.gas := rfl
@[simp] theorem raiseErr_seq (e : ErrCode) (s : State) : (raiseErr e s).seq = { s.seq with phase := .idle } := rfl
@[simp] theorem raiseErr_params (e : ErrCode) (s : State) : (raiseErr e s).params = s.params := rfl
@[simp] theorem raiseErr_env (e : ErrCode) (s : State) : (raiseErr e s).env = s.env := rfl

/-! Issue (30_encoding.md R98). -/

@[simp] theorem issue_cmd (w : Word) (s : State) : (issue w s).cmd = w := rfl
@[simp] theorem issue_done (w : Word) (s : State) : (issue w s).done = false := rfl
@[simp] theorem issue_err (w : Word) (s : State) : (issue w s).err = s.err := rfl
@[simp] theorem issue_events (w : Word) (s : State) : (issue w s).events = s.events := rfl
@[simp] theorem issue_config (w : Word) (s : State) : (issue w s).config = s.config := rfl
@[simp] theorem issue_envHIn (w : Word) (s : State) : (issue w s).envHIn = s.envHIn := rfl
@[simp] theorem issue_envTIn (w : Word) (s : State) : (issue w s).envTIn = s.envTIn := rfl
@[simp] theorem issue_climate (w : Word) (s : State) : (issue w s).climate = s.climate := rfl
@[simp] theorem issue_gas (w : Word) (s : State) : (issue w s).gas = s.gas := rfl
@[simp] theorem issue_seq (w : Word) (s : State) :
    (issue w s).seq = { phase := .run, cmd := w, cfg := s.config, envH := s.envHIn, envT := s.envTIn, step := 0, buf := [] } :=
  rfl
@[simp] theorem issue_params (w : Word) (s : State) : (issue w s).params = s.params := rfl
@[simp] theorem issue_env (w : Word) (s : State) : (issue w s).env = s.env := rfl

/-! A host read (44_host_access.md R271). -/

@[simp] theorem hostRead_cmd (i : BitVec 6) (s : State) : (hostRead i s).cmd = s.cmd := rfl
@[simp] theorem hostRead_done (i : BitVec 6) (s : State) : (hostRead i s).done = s.done := rfl
@[simp] theorem hostRead_err (i : BitVec 6) (s : State) : (hostRead i s).err = s.err := rfl
@[simp] theorem hostRead_events (i : BitVec 6) (s : State) : (hostRead i s).events = s.events := rfl
@[simp] theorem hostRead_config (i : BitVec 6) (s : State) : (hostRead i s).config = s.config := rfl
@[simp] theorem hostRead_envHIn (i : BitVec 6) (s : State) : (hostRead i s).envHIn = s.envHIn := rfl
@[simp] theorem hostRead_envTIn (i : BitVec 6) (s : State) : (hostRead i s).envTIn = s.envTIn := rfl
@[simp] theorem hostRead_climate (i : BitVec 6) (s : State) : (hostRead i s).climate = s.climate := rfl
@[simp] theorem hostRead_gas (i : BitVec 6) (s : State) : (hostRead i s).gas = s.gas := rfl
@[simp] theorem hostRead_seq (i : BitVec 6) (s : State) : (hostRead i s).seq = s.seq := rfl
@[simp] theorem hostRead_params (i : BitVec 6) (s : State) : (hostRead i s).params = s.params := rfl
@[simp] theorem hostRead_env (i : BitVec 6) (s : State) :
    (hostRead i s).env = { s.env with readLog := s.env.readLog ++ [(i, readReg i s)] } := rfl

/-! The reset of the registers (70_reset_and_hazards.md R340). -/

@[simp] theorem resetState_cmd (s : State) : (resetState s).cmd = State.reset.cmd := rfl
@[simp] theorem resetState_done (s : State) : (resetState s).done = State.reset.done := rfl
@[simp] theorem resetState_err (s : State) : (resetState s).err = State.reset.err := rfl
@[simp] theorem resetState_events (s : State) : (resetState s).events = State.reset.events := rfl
@[simp] theorem resetState_config (s : State) : (resetState s).config = State.reset.config := rfl
@[simp] theorem resetState_envHIn (s : State) : (resetState s).envHIn = State.reset.envHIn := rfl
@[simp] theorem resetState_envTIn (s : State) : (resetState s).envTIn = State.reset.envTIn := rfl
@[simp] theorem resetState_climate (s : State) : (resetState s).climate = State.reset.climate := rfl
@[simp] theorem resetState_gas (s : State) : (resetState s).gas = State.reset.gas := rfl
@[simp] theorem resetState_seq (s : State) : (resetState s).seq = State.reset.seq := rfl
@[simp] theorem resetState_params (s : State) : (resetState s).params = s.params := rfl
@[simp] theorem resetState_env (s : State) : (resetState s).env = s.env := rfl

/-! The transport has used up one response (20_memory.md R66). -/

@[simp] theorem Environment.consume_turns (v : Environment) : v.consume.turns = v.turns := rfl
@[simp] theorem Environment.consume_answers (v : Environment) : v.consume.answers = v.answers.tail := rfl
@[simp] theorem Environment.consume_draws (v : Environment) : v.consume.draws = v.draws + 1 := rfl
@[simp] theorem Environment.consume_busLog (v : Environment) : v.consume.busLog = v.busLog := rfl
@[simp] theorem Environment.consume_readLog (v : Environment) : v.consume.readLog = v.readLog := rfl

/-! The empty commit block (30_encoding.md R104). -/

@[simp] theorem State.unchanged_climate (s : State) : s.unchanged.climate = s.climate := rfl
@[simp] theorem State.unchanged_gas (s : State) : s.unchanged.gas = s.gas := rfl
@[simp] theorem State.unchanged_events (s : State) : s.unchanged.events = 0 := rfl

/-! The COMP of a run. -/

@[simp] theorem CompChoice.functions_default : CompChoice.functions .default = Comp.default := rfl
@[simp] theorem CompChoice.functions_other (k : Nat) : CompChoice.functions (.other k) = Config.otherComp k := rfl
@[simp] theorem Comp.default_temperature : Comp.default.temperature = compT := rfl
@[simp] theorem Comp.default_pressure : Comp.default.pressure = compP := rfl
@[simp] theorem Comp.default_humidity : Comp.default.humidity = compH := rfl

end Sys2Proof.Machine
end

