-- ==== Sys2Proof/Laws/Ops.lean ====
section
/-! SUPPORT. What each shared operation can do, said once: the template step, a transaction, the dispatch to the template, and
a step by whose turn it is. -/

namespace Sys2Proof.Machine

/-- A response is FAIL, or OK with exactly the bytes asked for (20_memory.md R66). -/
theorem Transaction.conform_cases (t : Transaction) (r : BusResponse) :
    t.conform r = .fail ∨ ∃ b, t.conform r = .ok b ∧ b.length = t.replyLen := by
  cases r with
  | fail => exact .inl rfl
  | ok b =>
    unfold Transaction.conform
    by_cases h : b.length = t.replyLen
    · exact .inr ⟨b, by simp [h], h⟩
    · exact .inl (by simp [h])

/-- The same of the answer to a transaction. -/
theorem State.answer_cases (t : Transaction) (s : State) :
    s.answer t = .fail ∨ ∃ b, s.answer t = .ok b ∧ b.length = t.replyLen :=
  Transaction.conform_cases t _

/-- The answer depends on the transport's script and its counter alone. -/
theorem State.answer_congr {s s' : State} (t : Transaction) (ha : s.env.answers = s'.env.answers)
    (hd : s.env.draws = s'.env.draws) : s.answer t = s'.answer t := by
  simp only [State.answer, Environment.nextAnswer, ha, hd]

/-- The next answer where the script gives one. -/
theorem State.answer_scripted {s : State} {r : BusResponse} {rest : List BusResponse} (t : Transaction)
    (h : s.env.answers = r :: rest) : s.answer t = t.conform r := by
  simp only [State.answer, Environment.nextAnswer, h]

/-- An OK response: the bytes are staged and the next transaction is due (30_encoding.md R98). -/
theorem transact_ok {t : Transaction} {s : State} {b : List Byte} (h : s.answer t = .ok b) :
    transact t s =
      { s.logBus t (some (.ok b)) with seq := { s.seq with buf := s.seq.buf ++ b, step := s.seq.step + 1 } } := by
  simp only [transact, h, State.logBus_seq]

/-- A FAIL: the command ends with TRANSPORT (30_encoding.md R102). -/
theorem transact_fail {t : Transaction} {s : State} (h : s.answer t = .fail) :
    transact t s = raiseErr .transport (s.logBus t (some .fail)) := by
  simp only [transact, h]

/-- The template with a failing precheck (30_encoding.md R99). -/
theorem advance_error {pre : ErrCode} {next : Option Transaction} {eff : Effects} {s : State} (h : pre ≠ .ok) :
    advance pre next eff s = raiseErr pre s := by
  cases pre <;> first | exact absurd rfl h | rfl

/-- The template with a transaction due (30_encoding.md R98). -/
theorem advance_transact {next : Option Transaction} {t : Transaction} {eff : Effects} {s : State} (h : next = some t) :
    advance .ok next eff s = transact t s := by
  subst h; rfl

/-- The template with the schedule finished (30_encoding.md R98). -/
theorem advance_complete {next : Option Transaction} {eff : Effects} {s : State} (h : next = none) :
    advance .ok next eff s = complete .ok eff s := by
  subst h; rfl

/-- Everything one template step can do. -/
theorem advance_cases (pre : ErrCode) (next : Option Transaction) (eff : Effects) (s : State) :
    (pre ≠ .ok ∧ advance pre next eff s = raiseErr pre s) ∨
    (pre = .ok ∧ next = none ∧ advance pre next eff s = complete .ok eff s) ∨
    (∃ t, pre = .ok ∧ next = some t ∧ s.answer t = .fail ∧
      advance pre next eff s = raiseErr .transport (s.logBus t (some .fail))) ∨
    (∃ t b, pre = .ok ∧ next = some t ∧ s.answer t = .ok b ∧ b.length = t.replyLen ∧
      advance pre next eff s =
        { s.logBus t (some (.ok b)) with seq := { s.seq with buf := s.seq.buf ++ b, step := s.seq.step + 1 } }) := by
  by_cases hp : pre = .ok
  · subst hp
    cases next with
    | none => exact .inr (.inl ⟨rfl, rfl, rfl⟩)
    | some t =>
      rcases s.answer_cases t with hf | ⟨b, hb, hl⟩
      · exact .inr (.inr (.inl ⟨t, rfl, rfl, hf, transact_fail hf⟩))
      · exact .inr (.inr (.inr ⟨t, b, rfl, rfl, hb, hl, transact_ok hb⟩))
  · exact .inl ⟨hp, advance_error hp⟩

/-- Every command's meaning is one template step with its own precheck, schedule and effects (30_encoding.md R98). -/
theorem exec_eq_advance (i : Instr) (s : State) :
    exec i s = .next (advance (precheckOf i s) (nextTxnOf i s) (effectsOf i s) s) := by
  cases i <;> rfl

/-- Everything one step of a running command can do. -/
theorem exec_cases (i : Instr) (s : State) :
    (precheckOf i s ≠ .ok ∧ exec i s = .next (raiseErr (precheckOf i s) s)) ∨
    (precheckOf i s = .ok ∧ nextTxnOf i s = none ∧
      exec i s = .next (complete .ok (effectsOf i s) s)) ∨
    (∃ t, precheckOf i s = .ok ∧ nextTxnOf i s = some t ∧ s.answer t = .fail ∧
      exec i s = .next (raiseErr .transport (s.logBus t (some .fail)))) ∨
    (∃ t b, precheckOf i s = .ok ∧ nextTxnOf i s = some t ∧ s.answer t = .ok b ∧ b.length = t.replyLen ∧
      exec i s = .next
        { s.logBus t (some (.ok b)) with seq := { s.seq with buf := s.seq.buf ++ b, step := s.seq.step + 1 } }) := by
  rw [exec_eq_advance]
  rcases advance_cases (precheckOf i s) (nextTxnOf i s) (effectsOf i s) s with
    ⟨h, e⟩ | ⟨h, hn, e⟩ | ⟨t, h, hn, ha, e⟩ | ⟨t, b, h, hn, ha, hl, e⟩
  · exact .inl ⟨h, by rw [e]⟩
  · exact .inr (.inl ⟨h, hn, by rw [e]⟩)
  · exact .inr (.inr (.inl ⟨t, h, hn, ha, by rw [e]⟩))
  · exact .inr (.inr (.inr ⟨t, b, h, hn, ha, hl, by rw [e]⟩))

/-- A command asks for at least one byte in a block read (20_memory.md R63). -/
theorem nextTxnOf_rdBlock {i : Instr} {s : State} {dev reg : Byte} {n : BitVec 8}
    (h : nextTxnOf i s = some (.rdBlock dev reg n)) : n ≠ 0 := by
  have h := List.mem_of_getElem? h
  cases i <;> simp [scheduleOf, climInitSchedule, climSampleSchedule, gasInitSchedule, gasReadySchedule, compSchedule,
    updateSchedule] at h
  case climInit => rcases h with h | h <;> simp [h]
  case climSample => simp [h]
  case gasUpdate => simp [h]
  case gasSample => simp [h]
  all_goals (split at h <;> simp at h)

/-- Every command answers a next state. -/
theorem exec_next (i : Instr) (s : State) : ∃ t, exec i s = .next t := ⟨_, exec_eq_advance i s⟩

/-- A step where the sequencer moves. -/
theorem step_sequencer {s t : State} (h : s.sequencerView = some t) : step s = runSequencer t := by
  simp only [step, h]

/-- A step where someone else moves. -/
theorem step_outside {s : State} (h : s.sequencerView = none) : step s = .next (outsideTurn s) := by
  simp only [step, h]

/-- The sequencer in IDLE. -/
theorem runSequencer_idle {s : State} (h : s.seq.phase = .idle) : runSequencer s = .next s := by
  simp only [runSequencer, h]

/-- The sequencer running a legal word. -/
theorem runSequencer_run {s : State} {i : Instr} (h : s.seq.phase = .run) (hd : decode s.seq.cmd = .ok i) :
    runSequencer s = exec i s := by
  simp only [runSequencer, h, hd]

/-- The sequencer running an illegal word. -/
theorem runSequencer_illegal {s : State} {r : DecodeReject} (h : s.seq.phase = .run) (hd : decode s.seq.cmd = .error r) :
    runSequencer s = .next (raiseErr .illegal s) := by
  simp only [runSequencer, h, hd]; rfl

/-- Whose state the sequencer moves from: the pending turns apart, it is the state itself. -/
theorem State.sequencerView_eq {s t : State} (h : s.sequencerView = some t) :
    t = { s with env := { s.env with turns := t.env.turns } } := by
  unfold State.sequencerView at h
  split at h
  · cases h; rfl
  · cases h; rfl
  · split at h
    · cases h; rfl
    · cases h
  · cases h
  · cases h
  · cases h

/-- Everything one step can do. -/
theorem step_cases (s : State) :
    (∃ t, s.sequencerView = some t ∧ t.seq.phase = .idle ∧ step s = .next t) ∨
    (∃ t i, s.sequencerView = some t ∧ t.seq.phase = .run ∧ decode t.seq.cmd = .ok i ∧ step s = exec i t) ∨
    (∃ t r, s.sequencerView = some t ∧ t.seq.phase = .run ∧ decode t.seq.cmd = .error r ∧
      step s = .next (raiseErr .illegal t)) ∨
    (∃ i rest, s.env.turns = .rd i :: rest ∧ step s = .next (hostRead i s.nextTurn)) ∨
    (∃ i v rest, s.env.turns = .wr i v :: rest ∧ step s = .next (hostWrite i v s.nextTurn)) ∨
    (∃ f rest, s.env.turns = .reset f :: rest ∧ step s = .next (resetInput f s.nextTurn)) ∨
    (∃ rest, s.env.turns = .wait :: rest ∧ s.seq.phase = .idle ∧ step s = .next s.nextTurn) := by
  cases hv : s.sequencerView with
  | some t =>
    have hs := step_sequencer hv
    cases hp : t.seq.phase with
    | idle => exact .inl ⟨t, rfl, hp, by rw [hs, runSequencer_idle hp]⟩
    | run =>
      cases hd : decode t.seq.cmd with
      | ok i => exact .inr (.inl ⟨t, i, rfl, hp, hd, by rw [hs, runSequencer_run hp hd]⟩)
      | error r => exact .inr (.inr (.inl ⟨t, r, rfl, hp, hd, by rw [hs, runSequencer_illegal hp hd]⟩))
  | none =>
    have hs := step_outside hv
    unfold State.sequencerView at hv
    unfold outsideTurn at hs
    cases ht : s.env.turns with
    | nil => simp [ht] at hv
    | cons a rest =>
      simp only [ht] at hv hs
      cases a with
      | rd i => exact .inr (.inr (.inr (.inl ⟨i, rest, rfl, hs⟩)))
      | wr i v => exact .inr (.inr (.inr (.inr (.inl ⟨i, v, rest, rfl, hs⟩))))
      | reset f => exact .inr (.inr (.inr (.inr (.inr (.inl ⟨f, rest, rfl, hs⟩)))))
      | sequencer => simp at hv
      | wait =>
        refine .inr (.inr (.inr (.inr (.inr (.inr ⟨rest, rfl, ?_, hs⟩)))))
        cases hp : s.seq.phase with
        | idle => rfl
        | run => simp [State.busy, hp] at hv

/-- Everything a host write can do (44_host_access.md R278). -/
theorem hostWrite_cases (i : BitVec 6) (v : Word) (s : State) :
    (i = 0x00 ∧ s.seq.phase = .idle ∧ hostWrite i v s = issue v s) ∨
    (i = 0x00 ∧ s.seq.phase = .run ∧ hostWrite i v s = { s with events := s.events ||| evOverrun }) ∨
    (i = 0x02 ∧ hostWrite i v s = { s with events := s.events &&& ~~~(v.extractLsb' 0 11) }) ∨
    (i = 0x03 ∧ hostWrite i v s = { s with config := BusConfig.ofWord v }) ∨
    (i = 0x04 ∧ hostWrite i v s = { s with envHIn := v }) ∨
    (i = 0x05 ∧ hostWrite i v s = { s with envTIn := v }) ∨
    (i ∉ ([0x00, 0x02, 0x03, 0x04, 0x05] : List (BitVec 6)) ∧ hostWrite i v s = s) := by
  unfold hostWrite
  by_cases h0 : i = 0x00
  · cases hp : s.seq.phase with
    | idle => exact .inl ⟨h0, rfl, by rw [if_pos h0]; simp only [writeCmd, hp]⟩
    | run => exact .inr (.inl ⟨h0, rfl, by rw [if_pos h0]; simp only [writeCmd, hp]⟩)
  rw [if_neg h0]
  by_cases h2 : i = 0x02
  · exact .inr (.inr (.inl ⟨h2, if_pos h2⟩))
  rw [if_neg h2]
  by_cases h3 : i = 0x03
  · exact .inr (.inr (.inr (.inl ⟨h3, if_pos h3⟩)))
  rw [if_neg h3]
  by_cases h4 : i = 0x04
  · exact .inr (.inr (.inr (.inr (.inl ⟨h4, if_pos h4⟩))))
  rw [if_neg h4]
  by_cases h5 : i = 0x05
  · exact .inr (.inr (.inr (.inr (.inr (.inl ⟨h5, if_pos h5⟩)))))
  rw [if_neg h5]
  exact .inr (.inr (.inr (.inr (.inr (.inr ⟨by simp_all, rfl⟩)))))

/-- A command's step either leaves both units alone or is its completion with ERR = OK (30_encoding.md R103). -/
theorem exec_commit_cases {i : Instr} {s t : State} (h : exec i s = .next t) :
    (t.climate = s.climate ∧ t.gas = s.gas) ∨
    (precheckOf i s = .ok ∧ nextTxnOf i s = none ∧ t = complete .ok (effectsOf i s) s) := by
  rcases exec_cases i s with ⟨-, e⟩ | ⟨hp, hn, e⟩ | ⟨x, -, -, -, e⟩ | ⟨x, b, -, -, -, -, e⟩ <;> rw [h] at e <;> cases e
  · exact .inl ⟨rfl, rfl⟩
  · exact .inr ⟨hp, hn, rfl⟩
  · exact .inl ⟨rfl, rfl⟩
  · exact .inl ⟨rfl, rfl⟩

/-- The same of a step that is not the reset input. -/
theorem step_commit_cases {s t : State} (h : step s = .next t) (hr : ∀ f rest, s.env.turns ≠ .reset f :: rest) :
    (t.climate = s.climate ∧ t.gas = s.gas) ∨
    (∃ i u, s.sequencerView = some u ∧ s.seq.phase = .run ∧ decode s.seq.cmd = .ok i ∧ precheckOf i u = .ok ∧
      nextTxnOf i u = none ∧ t = complete .ok (effectsOf i u) u) := by
  rcases step_cases s with ⟨u, hv, hp, e⟩ | ⟨u, i, hv, hp, hd, e⟩ | ⟨u, r, hv, hp, hd, e⟩ | ⟨i, rest, ht, e⟩ |
    ⟨i, v, rest, ht, e⟩ | ⟨f, rest, ht, e⟩ | ⟨rest, ht, hp, e⟩ <;> rw [h] at e
  · cases e; rw [State.sequencerView_eq hv]; exact .inl ⟨rfl, rfl⟩
  · have hq := State.sequencerView_eq hv
    rcases exec_commit_cases e.symm with hu | ⟨h1, h2, h3⟩
    · rw [hu.1, hu.2, hq]; exact .inl ⟨rfl, rfl⟩
    · rw [hq] at hp hd
      exact .inr ⟨i, u, hv, hp, hd, h1, h2, h3⟩
  · cases e; rw [State.sequencerView_eq hv]; exact .inl ⟨rfl, rfl⟩
  · cases e; exact .inl ⟨rfl, rfl⟩
  · cases e
    rcases hostWrite_cases i v s.nextTurn with ⟨_, _, e⟩ | ⟨_, _, e⟩ | ⟨_, e⟩ | ⟨_, e⟩ | ⟨_, e⟩ | ⟨_, e⟩ | ⟨_, e⟩ <;>
      rw [e] <;> exact .inl ⟨rfl, rfl⟩
  · exact absurd ht (hr f rest)
  · cases e; exact .inl ⟨rfl, rfl⟩

/-- Everything the reset input can do (70_reset_and_hazards.md R340, R343). -/
theorem resetInput_cases (f : Bool) (s : State) :
    (∃ t, f = true ∧ pendingTxn s = some t ∧ resetInput f s = resetState (s.logBus t none)) ∨
    ((f = false ∨ pendingTxn s = none) ∧ resetInput f s = resetState s) := by
  unfold resetInput
  cases f <;> cases h : pendingTxn s <;> simp

end Sys2Proof.Machine
end

