-- ==== Sys2Proof/Laws/PerInstr.lean ====
section
/-! SUPPORT. A law of every command as syntax, one lemma per constructor: its fields pass the checks of a legal word
(30_encoding.md R90 to R92), and they are what its word holds. -/

/-- The command's fields are legal and are the fields of its word. -/
def Sys2Proof.Laws.WellFormedWord.Statement (i : Sys2Proof.Instr) : Prop :=
  i.fields.wf = true ∧ Sys2Proof.CommandWord.ofWord (Sys2Proof.encode i) = i.fields

theorem Sys2Proof.Laws.WellFormedWord.nop : Sys2Proof.Laws.WellFormedWord.Statement .nop := ⟨by decide, by decide⟩

theorem Sys2Proof.Laws.WellFormedWord.climInit : Sys2Proof.Laws.WellFormedWord.Statement .climInit :=
  ⟨by decide, by decide⟩

theorem Sys2Proof.Laws.WellFormedWord.climSample : Sys2Proof.Laws.WellFormedWord.Statement .climSample :=
  ⟨by decide, by decide⟩

theorem Sys2Proof.Laws.WellFormedWord.gasInit : Sys2Proof.Laws.WellFormedWord.Statement .gasInit :=
  ⟨by decide, by decide⟩

theorem Sys2Proof.Laws.WellFormedWord.gasReady : Sys2Proof.Laws.WellFormedWord.Statement .gasReady :=
  ⟨by decide, by decide⟩

theorem Sys2Proof.Laws.WellFormedWord.gasComp : Sys2Proof.Laws.WellFormedWord.Statement .gasComp :=
  ⟨by decide, by decide⟩

theorem Sys2Proof.Laws.WellFormedWord.gasCompOpnd : Sys2Proof.Laws.WellFormedWord.Statement .gasCompOpnd :=
  ⟨by decide, by decide⟩

theorem Sys2Proof.Laws.WellFormedWord.gasCompClim : Sys2Proof.Laws.WellFormedWord.Statement .gasCompClim :=
  ⟨by decide, by decide⟩

theorem Sys2Proof.Laws.WellFormedWord.gasUpdate : Sys2Proof.Laws.WellFormedWord.Statement .gasUpdate :=
  ⟨by decide, by decide⟩

theorem Sys2Proof.Laws.WellFormedWord.gasSample : Sys2Proof.Laws.WellFormedWord.Statement .gasSample :=
  ⟨by decide, by decide⟩
end

