-- ==== Sys2Proof/Tests/Slice0.lean ====
section
/-! SUPPORT. The author's tests: ill-formed command words, decoding by words written out from the opcode map, values from the
spec's vectors (95_test_vectors.md), at most two one-step tests per command, and for each statement with hypotheses a concrete
input that meets them. -/

namespace Sys2Proof.Tests

open Sys2Proof Sys2Proof.Machine

/-! ### Small states -/

/-- The calibration registers of the reference bytes of 95_test_vectors.md, as it lists them. -/
def refCal : CalibrationSet :=
  { temp := { t1 := 27504, t2 := 26435, t3 := BitVec.ofInt 64 (-1000) }
    press := { p1 := 36477, p2 := BitVec.ofInt 64 (-10685), p3 := 3024, p4 := 2855, p5 := 140, p6 := BitVec.ofInt 64 (-7),
               p7 := 15500, p8 := BitVec.ofInt 64 (-14600), p9 := 6000 }
    hum := { h1 := 75, h2 := 362, h3 := 0, h4 := 313, h5 := 50, h6 := 30 } }

/-- The 24 calibration bytes from 0x88. -/
def calA : List Byte :=
  [0x70, 0x6B, 0x43, 0x67, 0x18, 0xFC, 0x7D, 0x8E, 0x43, 0xD6, 0xD0, 0x0B, 0x27, 0x0B, 0x8C, 0x00, 0xF9, 0xFF, 0x8C, 0x3C,
   0xF8, 0xC6, 0x70, 0x17]

/-- The 7 calibration bytes from 0xE1. -/
def calE : List Byte := [0x6A, 0x01, 0x00, 0x13, 0x29, 0x03, 0x1E]

/-- The reference burst, the skip burst (raw pressure 0x80000), and the burst at the gate's last value 0x7FFFF. -/
def refBurst : List Byte := [0x65, 0x5A, 0xC0, 0x7E, 0xED, 0x00, 0x6D, 0x60]
def skipBurst : List Byte := [0x80, 0x00, 0x00, 0x80, 0x00, 0x00, 0x80, 0x00]
def lastBurst : List Byte := [0x7F, 0xFF, 0xF0, 0x7E, 0xED, 0x00, 0x6D, 0x60]

/-- Both units up: the reference calibration, and the gas unit booted. -/
def up : State :=
  { State.reset with
    climate := { ClimateUnit.reset with cal := refCal, calValid := true }
    gas := { GasUnit.reset with st := .booted, drive := 0b001 } }

/-- `up` after a sample (V8.1). -/
def sampled : State :=
  { up with
    climate :=
      { up.climate with
        tempC := 0x4039151D460F8000, pressHpa := 0x408F7442E7504A97, humPct := 0x4045EE012F8AFB86
        fine := 0x40FF5A6497936000, raw := unpackRaw refBurst, pValid := true, thValid := true } }

/-- `s` running command `i` with `k` transactions done and `b` staged. -/
def running (i : Instr) (k : Nat) (b : List Byte) (s : State) : State :=
  { s with
    cmd := encode i
    done := false
    seq := { phase := .run, cmd := encode i, cfg := s.config, envH := s.envHIn, envT := s.envTIn, step := k, buf := b } }

/-- `s` with the given pending turns and scripted responses. -/
def pending (turns : List Turn) (answers : List BusResponse) (s : State) : State :=
  { s with env := { s.env with turns := turns, answers := answers } }

/-- A field of the next state. -/
def after {α : Type} (f : State → α) : Host.Outcome State Fault Refusal → Option α
  | .next t => some (f t)
  | .fault _ => none
  | .refused _ => none

/-! ### The checks of a command word, each refusing an ill-formed one (30_encoding.md R90 to R92) -/

theorem test_wf_accepts : (CommandWord.ofWord 0x212).wf = true := by decide
theorem test_wf_reserved : CommandWord.reservedClear { opc := 0x02, src := 0, rsvd := 1 } = false ∧
    CommandWord.wf { opc := 0x02, src := 0, rsvd := 1 } = false := by decide
theorem test_wf_opcode : CommandWord.opcodeAssigned { opc := 0x03, src := 0, rsvd := 0 } = false ∧
    CommandWord.wf { opc := 0x03, src := 0, rsvd := 0 } = false := by decide
theorem test_wf_source : CommandWord.sourceLegal { opc := 0x12, src := 3, rsvd := 0 } = false ∧
    CommandWord.sourceLegal { opc := 0x01, src := 1, rsvd := 0 } = false ∧
    CommandWord.wf { opc := 0x12, src := 3, rsvd := 0 } = false := by decide

/-! ### Decoding: each command's word written out as RSVD, SRC, OPC from the opcode map (30_encoding.md R91) -/

/-- The fields side by side, as R90 draws them. -/
def word (rsvd : BitVec 54) (src : BitVec 2) (opc : BitVec 8) : Word := rsvd ++ src ++ opc

theorem test_decode_nop : decode (word 0 0b00 0b00000000) = .ok .nop := by decide
theorem test_decode_climInit : decode (word 0 0b00 0b00000001) = .ok .climInit := by decide
theorem test_decode_climSample : decode (word 0 0b00 0b00000010) = .ok .climSample := by decide
theorem test_decode_gasInit : decode (word 0 0b00 0b00010000) = .ok .gasInit := by decide
theorem test_decode_gasReady : decode (word 0 0b00 0b00010001) = .ok .gasReady := by decide
theorem test_decode_gasComp : decode (word 0 0b00 0b00010010) = .ok .gasComp := by decide
theorem test_decode_gasCompOpnd : decode (word 0 0b01 0b00010010) = .ok .gasCompOpnd := by decide
theorem test_decode_gasCompClim : decode (word 0 0b10 0b00010010) = .ok .gasCompClim := by decide
theorem test_decode_gasUpdate : decode (word 0 0b00 0b00010011) = .ok .gasUpdate := by decide
theorem test_decode_gasSample : decode (word 0 0b00 0b00010100) = .ok .gasSample := by decide

/-- The illegal words of V1, each with the rule that refuses it. -/
theorem test_decode_illegal :
    decode 0x312 = .error .reservedSource ∧ decode 0x03 = .error .unassignedOpcode ∧ decode 0xFF = .error .unassignedOpcode ∧
    decode 0x100 = .error .unexpectedSource ∧ decode 0x213 = .error .unexpectedSource ∧ decode 0x400 = .error .reservedBits ∧
    decode 0x412 = .error .reservedBits ∧ decode 0x8000000000000002 = .error .reservedBits := by decide

/-- A word that the opcode table's numbering gives. -/
theorem test_decodeTableWord : decodeTableWord 64 0x212 = some .gasCompClim ∧ decodeTableWord 64 0x312 = none := by decide

/-- A command placed as the next one is run by the next step. -/
theorem test_withFetchWord : step (State.reset.withFetchWord 64 0x2) = exec .climSample (issue 0x2 State.reset) := by rfl

/-! ### Values of the spec's vectors -/

/-- The bytes of 30_encoding.md R124 to R127. -/
theorem test_device_bytes :
    [climInitHumByte, climInitMeasByte, climInitConfigByte, gasInitModeByte] = [0x01, 0x57, 0x10, 0x10] := by decide

/-- V2: the reference bytes; the nibbles of 0xE5; a narrow field under both values of NARROW_SEXT. -/
theorem test_unpackCal :
    unpackCal .fieldWidth (calA ++ [0x4B] ++ calE) = refCal ∧
    humH4 (List.replicate 29 0 ++ [0xA5, 0, 0]) = 5 ∧ humH5 (List.replicate 29 0 ++ [0xA5, 0, 0]) = 10 ∧
    (narrowSext .fieldWidth (0x80 : BitVec 8)).toInt = -128 ∧ (narrowSext .rule16 (0x80 : BitVec 8)).toInt = 128 := by
  decide

/-- V3: the low nibbles of bytes 2 and 5 do not matter; RAW_SAMPLE of the reference burst. -/
theorem test_unpackRaw :
    (unpackRaw [0x65, 0x5A, 0xCF, 0x7E, 0xED, 0x0F, 0x6D, 0x60]).word = 0x006D607EED0655AC ∧
    (unpackRaw refBurst).word = 0x006D607EED0655AC := by decide

/-- V9: the ranges at their bounds. -/
theorem test_ranges :
    [eco2OK 400, eco2OK 401, eco2OK 8191, eco2OK 8192] = [false, true, true, false] ∧
    [tvocOK 0, tvocOK 1, tvocOK 1186, tvocOK 1187] = [false, true, true, false] ∧
    [pressureOK 0x7FFFF, pressureOK 0x80000] = [true, false] := by decide

/-- V6.3, V6.2, V6.10, V6.11: both clamps, the guard, and a -0.0 that is not clamped. -/
theorem test_humidity :
    compH 40000 0x40FF5A6497936000 refCal.hum = (0x4059000000000000, .clampHi) ∧
    compH 20032 0x40FF5A6497936000 refCal.hum = (0, .clampLo) ∧
    compH 28000 0x40F2C00000000000 refCal.hum = (0, .divGuard) ∧
    compH 20032 0x40FF5A6497936000 { refCal.hum with h2 := BitVec.ofInt 64 (-362), h5 := 0 } =
      (0x8000000000000000, .none) := by decide +kernel

/-- V11.6, V11.7, V11.15, V11.17: ties under both rules, a NaN, and a word out of range. -/
theorem test_encEnv :
    encEnv .even 0x4049002000000000 0x4039000000000000 = some (0x6400, 0x6400) ∧
    encEnv .away 0x4049002000000000 0x4039000000000000 = some (0x6401, 0x6400) ∧
    encEnv .even 0xBF50000000000000 0x4039000000000000 = some (0, 0x6400) ∧
    encEnv .away 0xBF50000000000000 0x4039000000000000 = none ∧
    encEnv .even 0x7FF8000000000000 0x4039000000000000 = none ∧
    encEnv .even 0x4069000000000000 0x4039000000000000 = none := by decide +kernel

/-- 30_encoding.md R112: the expansions. -/
theorem test_assemble :
    assemble [.boot, .gasCompWith 1 2, .clrev] =
      [.wr 0x00 0x01, .wait, .wr 0x00 0x10, .wait, .wr 0x04 1, .wr 0x05 2, .wr 0x00 0x112, .wr 0x02 0x7FF] ∧
    assemble [.cycle] = [.wr 0x00 0x02, .wait, .wr 0x00 0x212, .wait, .wr 0x00 0x13, .wait] := by decide

/-! ### One step of each command -/

/-- V13.7: NOP ends with OK and clears ERR. -/
theorem test_nop :
    after (fun t => (t.done, t.err, t.events)) (exec .nop { running .nop 0 [] up with err := .transport }) =
      some (true, .ok, 0) := by decide

/-- P1, transaction 4. -/
theorem test_climInit_transaction :
    after (fun t => (t.env.busLog, t.seq.step, t.climate.calValid))
        (exec .climInit (running .climInit 3 [] (pending [] [.ok calA] State.reset))) =
      some ([{ txn := .rdBlock 0x77 0x88 24, resp := some (.ok calA) }], 4, false) := by decide

/-- V7.1: the status after CLIM.INIT. -/
theorem test_climInit_commit :
    after (fun t => (t.status, t.climate.cal))
        (exec .climInit (running .climInit 6 (calA ++ [0x4B] ++ calE) State.reset)) = some (0x102, refCal) := by decide

/-- V8.1: the commit of the reference burst; and a run with another COMP (10_state.md R44) compensates by it. -/
theorem test_climSample_commit :
    after (fun t => (t.climate.tempC, t.climate.pressHpa, t.climate.humPct, t.events))
        (exec .climSample (running .climSample 1 refBurst up)) =
      some (0x4039151D460F8000, 0x408F7442E7504A97, 0x4045EE012F8AFB86, 0) ∧
    after (fun t => t.climate.tempC)
        (exec .climSample (running .climSample 1 refBurst { up with params := { up.params with comp := .other 7 } })) =
      some ((Config.otherComp 7).temperature (unpackRaw refBurst).adcT refCal.temp).2 :=
  ⟨by decide +kernel, rfl⟩

/-- V8.2: the skip burst keeps the pressure. -/
theorem test_climSample_skip :
    after (fun t => (t.climate.tempC, t.climate.pressHpa, t.climate.humPct, t.events))
        (exec .climSample (running .climSample 1 skipBurst sampled)) =
      some (0x403A75F9CB800000, 0x408F7442E7504A97, 0x40519D20B4A46DB1, 0x001) := by decide +kernel

/-- V10.1: the status after GAS.INIT. -/
theorem test_gasInit :
    after (fun t => t.status) (exec .gasInit (running .gasInit 2 [] State.reset)) = some 0x1202 := by decide

/-- V10.16: a failing mode write. -/
theorem test_gasInit_fail :
    after (fun t => (t.err, t.events, t.gas.st, t.env.busLog))
        (exec .gasInit (running .gasInit 1 [] (pending [] [.fail] State.reset))) =
      some (.transport, 0x100, .uninit, [{ txn := .wrByte 0x5B 0x01 0x10, resp := some .fail }]) := by decide

/-- V10.2, V10.3. -/
theorem test_gasReady :
    after (fun t => (t.gas.ready, t.gas.st)) (exec .gasReady (running .gasReady 1 [0x98] up)) = some (true, .booted) ∧
    after (fun t => t.gas.ready) (exec .gasReady (running .gasReady 1 [0xF7] up)) = some false := by decide

/-- S1. -/
theorem test_gasComp :
    after (fun t => t.env.busLog) (exec .gasComp (running .gasComp 0 [] (pending [] [.ok []] up))) =
      some [{ txn := .wrBlock 0x5B 0x05 4 #v[0x64, 0x00, 0x64, 0x00], resp := some (.ok []) }] := by decide +kernel

/-- V11.3 by ENV_H_IN and ENV_T_IN. -/
theorem test_gasCompOpnd :
    after (fun t => readReg 0x0E t)
        (exec .gasCompOpnd
          (running .gasCompOpnd 1 [] { up with envHIn := 0x404A400000000000, envTIn := 0x4035C00000000000 })) =
      some 0x5D806900 := by decide +kernel

/-- V11.2 from the sample's outputs, and V13.3. -/
theorem test_gasCompClim :
    after (fun t => readReg 0x0E t) (exec .gasCompClim (running .gasCompClim 1 [] sampled)) = some 0x642A57B8 ∧
    after (fun t => t.err) (exec .gasCompClim (running .gasCompClim 0 [] up)) = some .noClimate := by decide +kernel

/-- V10.5. -/
theorem test_gasUpdate_ready :
    after (fun t => (t.gas.eco2, t.gas.tvoc, t.gas.result))
        (exec .gasUpdate (running .gasUpdate 2 [0x98, 0x01, 0xF4, 0x00, 0x2A, 0x98, 0x00, 0x03, 0xE8] up)) =
      some (500, 42, 0x01F4002A980003E8) := by decide

/-- V10.4. -/
theorem test_gasUpdate_notReady :
    after (fun t => (t.gas.st, t.events, t.err)) (exec .gasUpdate (running .gasUpdate 1 [0x00] up)) =
      some (.dataNotReady, 0x080, .ok) := by decide

/-- V10.9: both readings at the upper bounds are rejected. -/
theorem test_gasSample_rejects :
    after (fun t => (t.gas.eco2Valid, t.gas.tvocValid, t.events, t.gas.st))
        (exec .gasSample (running .gasSample 2 [0x08, 0x20, 0x00, 0x04, 0xA3, 0, 0, 0, 0] up)) =
      some (false, false, 0x060, .dataReady) := by decide

/-- V10.14. -/
theorem test_gasSample_notInit :
    after (fun t => (t.status, t.events, t.env.busLog)) (exec .gasSample (running .gasSample 0 [] State.reset)) =
      some (0x22, 0x200, []) := by decide

/-! ### Inputs that meet the hypotheses of the statements -/

/-- A clause of `DecodeFollowsFields` on the fields of a word. -/
def fieldsAre (w : Word) (rsvd src opc : Nat) : Prop := w.toNat / 1024 = rsvd ∧ w.toNat / 256 % 4 = src ∧ w.toNat % 256 = opc

/-- One word for each clause, at the least and the greatest reserved field, source and opcode. -/
theorem test_witness_DecodeFollowsFields :
    fieldsAre 0x400 1 0 0 ∧ fieldsAre 0xFFFFFFFFFFFFFFFF (2 ^ 54 - 1) 3 0xFF ∧ fieldsAre 0x312 0 3 0x12 ∧
    fieldsAre 0x012 0 0 0x12 ∧ fieldsAre 0x112 0 1 0x12 ∧ fieldsAre 0x212 0 2 0x12 ∧ fieldsAre 0x100 0 1 0x00 ∧
    fieldsAre 0x3FF 0 3 0xFF ∧ fieldsAre 0x000 0 0 0x00 ∧ fieldsAre 0x001 0 0 0x01 ∧ fieldsAre 0x002 0 0 0x02 ∧
    fieldsAre 0x010 0 0 0x10 ∧ fieldsAre 0x011 0 0 0x11 ∧ fieldsAre 0x013 0 0 0x13 ∧ fieldsAre 0x014 0 0 0x14 ∧
    fieldsAre 0x003 0 0 0x03 ∧ fieldsAre 0x0FF 0 0 0xFF := by
  unfold fieldsAre; decide

theorem test_witness_DecodeInvertsEncode : decode 0x112 = .ok .gasCompOpnd := by decide

theorem test_witness_StepRunsDecodedCommand :
    (running .gasReady 0 [] up).sequencerView = some (running .gasReady 0 [] up) ∧
    (running .gasReady 0 [] up).seq.phase = .run ∧ decode (running .gasReady 0 [] up).seq.cmd = .ok .gasReady := by decide

/-- The sequencer also moves on its own turn, and on a `wait` while BUSY = 1. -/
theorem test_witness_StepRunsDecodedCommand_turns :
    (pending [.sequencer] [] (running .gasReady 0 [] up)).sequencerView = some (running .gasReady 0 [] up) ∧
    (pending [.wait] [] (running .gasReady 0 [] up)).sequencerView =
      some (pending [.wait] [] (running .gasReady 0 [] up)) := by decide

theorem test_witness_IllegalWordCompletesWithIllegal : decode 0x312 = .error .reservedSource := by decide

theorem test_witness_CommandEndsWithinSevenSteps :
    (running .climInit 0 [] State.reset).seq.phase = .run ∧ (running .climInit 0 [] State.reset).env.turns = [] := by decide

theorem test_witness_CmdWriteWhileIdleIssues :
    (pending [.wr 0x00 0x2, .wait] [] up).env.turns = .wr 0x00 0x2 :: [.wait] ∧
    (pending [.wr 0x00 0x2, .wait] [] up).seq.phase = .idle := by decide

theorem test_witness_CmdWriteWhileBusyIsDropped :
    (pending [.wr 0x00 0x11] [] (running .gasUpdate 0 [] up)).env.turns = .wr 0x00 0x11 :: [] ∧
    (pending [.wr 0x00 0x11] [] (running .gasUpdate 0 [] up)).seq.phase = .run := by decide

theorem test_witness_EventsWriteClearsOnes :
    (pending [.wr 0x02 0x080] [] up).env.turns = .wr 0x02 0x080 :: [] ∧ (0 : Nat) < 11 ∧ (10 : Nat) < 11 ∧
    (0x100 : Word).getLsbD 8 = true ∧ (up.unchanged.events ||| ErrCode.transport.event).getLsbD 8 = true ∧
    (0x001 : Word).getLsbD 0 = true ∧ (({ up.unchanged with events := evPSkip } : Effects).events ||| ErrCode.ok.event).getLsbD 0
      = true := by decide

theorem test_witness_ConfigWriteTakesLowSixteenBits :
    (pending [.wr 0x03 0xFFFFFFFFFFFFFFFF] [] up).env.turns = .wr 0x03 0xFFFFFFFFFFFFFFFF :: [] := by decide

theorem test_witness_EnvInputWritesReplace :
    (pending [.wr 0x04 0x7FF8000000000000] [] up).env.turns = .wr 0x04 0x7FF8000000000000 :: [] ∧
    (pending [.wr 0x05 0x403E000000000000] [] up).env.turns = .wr 0x05 0x403E000000000000 :: [] := by decide

/-- The first and the last index of each range that ignores writes. -/
theorem test_witness_ReadOnlyAndReservedWritesIgnored :
    (pending [.wr 0x08 1] [] up).env.turns = .wr 0x08 1 :: [] ∧
    ∀ i ∈ ([0x01, 0x06, 0x08, 0x10, 0x14, 0x25, 0x26, 0x3F] : List (BitVec 6)),
      i ∉ ([0x00, 0x02, 0x03, 0x04, 0x05] : List (BitVec 6)) := by decide

theorem test_witness_HostReadReturnsValueWithoutEffect :
    (pending [.rd 0x26] [] up).env.turns = .rd 0x26 :: [] ∧ 0x26 ≤ (0x26 : BitVec 6).toNat ∧ 0x26 ≤ (0x3F : BitVec 6).toNat ∧
    (0x06 : BitVec 6).toNat ∈ [0x06, 0x07, 0x11, 0x12, 0x13] := by decide

/-- A reset with a transaction on the port, one between transactions, one where no command runs. -/
theorem test_witness_ResetInputAbandonsRunningCommand :
    (pending [.reset true] [] (running .climInit 4 calA State.reset)).env.turns = .reset true :: [] ∧
    pendingTxn (pending [.reset true] [] (running .climInit 4 calA State.reset)) = some (.rdByte 0x77 0xA1) ∧
    (pending [.reset false] [] (running .climInit 4 calA State.reset)).env.turns = .reset false :: [] ∧
    pendingTxn (pending [.reset true] [] up) = none := by decide

theorem test_witness_PrecheckReportsFirstFailure :
    let s : State := { running .nop 0 [] up with seq := { (running .nop 0 [] up).seq with cmd := 0x312 } }
    s.seq.phase = .run ∧ decode s.seq.cmd = .error .reservedSource := by decide

theorem test_witness_PrecheckErrorEndsCommand :
    precheckOf .gasReady State.reset ≠ .ok ∧ precheckOf .climSample State.reset ≠ .ok ∧
    precheckOf .gasCompClim up = .noClimate ∧
    precheckOf .gasCompOpnd (running .gasCompOpnd 0 [] { up with envHIn := 0x4069000000000000 }) = .envRange := by
  decide +kernel

theorem test_witness_SchedulesFollowTable :
    encEnv .even 0x4049000000000000 0x4039000000000000 = some (0x6400, 0x6400) ∧
    encEnv sampled.params.roundTies sampled.climate.humPct sampled.climate.tempC = some (0x57B8, 0x642A) ∧
    encEnv .even (running .gasCompOpnd 0 [] up).seq.envH (running .gasCompOpnd 0 [] up).seq.envT = some (0x6400, 0x6400) := by
  decide +kernel

theorem test_witness_TransactionStagesResponseBytes :
    precheckOf .gasReady (running .gasReady 0 [] (pending [] [.ok [0x08]] up)) = .ok ∧
    nextTxnOf .gasReady (running .gasReady 0 [] (pending [] [.ok [0x08]] up)) = some (.rdByte 0x5B 0x00) ∧
    (running .gasReady 0 [] (pending [] [.ok [0x08]] up)).answer (.rdByte 0x5B 0x00) = .ok [0x08] := by decide

theorem test_witness_ResponsesHaveExactLength :
    (pending [] [.ok [0x08, 0x09]] up).env.answers = .ok [0x08, 0x09] :: [] ∧
    (pending [] [.fail] up).env.answers = .fail :: [] := by decide

/-- A FAIL, and an OK of the wrong length, which is one. -/
theorem test_witness_FailedTransactionEndsCommand :
    precheckOf .gasReady (running .gasReady 0 [] (pending [] [.fail] up)) = .ok ∧
    nextTxnOf .gasReady (running .gasReady 0 [] (pending [] [.fail] up)) = some (.rdByte 0x5B 0x00) ∧
    (running .gasReady 0 [] (pending [] [.fail] up)).answer (.rdByte 0x5B 0x00) = .fail ∧
    (running .gasReady 0 [] (pending [] [.ok [1, 2]] up)).answer (.rdByte 0x5B 0x00) = .fail := by decide

/-- A step that is not the reset input and completes a command: also for `CalibrationChangesOnlyByClimInit`, whose command
it is, and for `EveryStepKeepsTheInvariant`. -/
theorem test_witness_UnitRegistersChangeOnlyAtCompletion :
    step (running .climInit 6 (calA ++ [0x4B] ++ calE) State.reset) =
      exec .climInit (running .climInit 6 (calA ++ [0x4B] ++ calE) State.reset) ∧
    (running .climInit 6 (calA ++ [0x4B] ++ calE) State.reset).resetNext = false := ⟨rfl, rfl⟩

/-- The four ends and the going on. -/
theorem test_witness_CommandsEndWithListedCodesAndEvents :
    (running .gasUpdate 1 [0x00] up).seq.phase = .run ∧
    after (fun t => (t.seq.phase, t.err)) (exec .gasUpdate (running .gasUpdate 1 [0x00] up)) = some (.idle, .ok) ∧
    after (fun t => (t.seq.phase, t.err)) (exec .gasUpdate (running .gasUpdate 0 [] (pending [] [.fail] up))) =
      some (.idle, .transport) ∧
    after (fun t => (t.seq.phase, t.err)) (exec .gasUpdate (running .gasUpdate 0 [] State.reset)) = some (.idle, .notInit) ∧
    after (fun t => t.seq.phase) (exec .gasUpdate (running .gasUpdate 0 [] (pending [] [.ok [0]] up))) = some .run := by decide

/-- A falling bit by the host and by reset; a rising OVERRUN. -/
theorem test_witness_EventBitsFallOnlyByHostOrReset :
    after (fun t => t.events) (step (pending [.wr 0x02 0x401] [] { up with events := 0x401 })) = some 0 ∧
    after (fun t => t.events) (step (pending [.reset false] [] { up with events := 0x401 })) = some 0 ∧
    after (fun t => t.events.getLsbD 10) (step (pending [.wr 0x00 0] [] (running .gasUpdate 0 [] up))) = some true := by decide

theorem test_witness_CommandsLeaveTheirFrame :
    (∃ t, exec .climSample (running .climSample 1 refBurst up) = .next t) ∧
    (∃ t, exec .gasReady (running .gasReady 1 [0x08] up) = .next t) ∧
    (∃ t, exec .gasComp (running .gasComp 1 [] up) = .next t) ∧ (∃ t, exec .gasUpdate (running .gasUpdate 1 [0] up) = .next t) :=
  ⟨⟨_, rfl⟩, ⟨_, rfl⟩, ⟨_, rfl⟩, ⟨_, rfl⟩⟩

theorem test_witness_UnitsAreIndependent :
    isClimateCommand .climSample = true ∧ isClimateCommand .gasReady = false ∧ Instr.gasReady ≠ .gasCompClim ∧
    ({ sampled.climate with pressHpa := 0 } : ClimateUnit).humPct = sampled.climate.humPct ∧
    ({ sampled.climate with pressHpa := 0 } : ClimateUnit).tempC = sampled.climate.tempC ∧
    ({ sampled.climate with pressHpa := 0 } : ClimateUnit).thValid = sampled.climate.thValid ∧
    (∃ t, exec .gasCompClim (running .gasCompClim 1 [] sampled) = .next t) :=
  ⟨rfl, rfl, by decide, rfl, rfl, rfl, ⟨_, rfl⟩⟩

theorem test_witness_NopOnlyCompletes :
    (0x100 : Word).toNat % 256 = 0 ∧ (0x100 : Word) ≠ 0 ∧ (running .gasUpdate 0 [] up).seq.phase = .run := by decide

theorem test_witness_ClimInitCommitsCalibration : 6 ≤ (running .climInit 6 (calA ++ [0x4B] ++ calE) State.reset).seq.step := by
  decide

/-- The three pressure paths, at the gate's two sides. -/
theorem test_witness_ClimSampleCommitsSample :
    up.climate.calValid = true ∧ 1 ≤ (running .climSample 1 refBurst up).seq.step ∧ up.params.comp = .default ∧
    (unpackRaw skipBurst).adcP.toNat = 0x80000 ∧ (unpackRaw lastBurst).adcP.toNat = 0x7FFFF ∧
    (compP (unpackRaw lastBurst).adcP (compT (unpackRaw lastBurst).adcT refCal.temp).1 refCal.press).isSome = true ∧
    compP (unpackRaw lastBurst).adcP (compT (unpackRaw lastBurst).adcT refCal.temp).1 { refCal.press with p1 := 0 } = none := by
  decide +kernel

theorem test_witness_PressureGateHoldsForAnyComp :
    (running .climSample 1 skipBurst up).climate.calValid = true ∧ 1 ≤ (running .climSample 1 skipBurst up).seq.step ∧
    0x80000 ≤ (unpackRaw (running .climSample 1 skipBurst up).seq.buf).adcP.toNat := by decide

theorem test_witness_ClimateCommandsRunToCompletion :
    (pending [.wr 0x00 0x01] ([.ok [], .ok [], .ok [], .ok calA, .ok [0x4B], .ok calE] ++ []) up).seq.phase = .idle ∧
    calA.length = 24 ∧ calE.length = 7 ∧ refBurst.length = 8 ∧
    (pending [.wr 0x00 0x02] [.ok refBurst] up).climate.calValid = true ∧
    (pending [.wr 0x00 0x02] [.ok refBurst] up).env.answers = .ok refBurst :: [] := by decide

theorem test_witness_GasInitCommitsBooted : 2 ≤ (running .gasInit 2 [] State.reset).seq.step := by decide

theorem test_witness_GasReadyCommitsDataReadyBit :
    up.gas.st ≠ .uninit ∧ 1 ≤ (running .gasReady 1 [0x08] up).seq.step ∧ (running .gasReady 1 [0x08] up).seq.buf = [0x08] := by
  decide

theorem test_witness_DefaultCompensationAlwaysEncodes :
    (running .gasComp 1 [] up).gas.st ≠ .uninit ∧ 1 ≤ (running .gasComp 1 [] up).seq.step := by decide

theorem test_witness_CompensationCommitsEnvWords :
    (running .gasCompClim 1 [] sampled).gas.st ≠ .uninit ∧ 1 ≤ (running .gasCompClim 1 [] sampled).seq.step ∧
    sampled.climate.thValid = true ∧
    encEnv .even sampled.climate.humPct sampled.climate.tempC = some (0x57B8, 0x642A) ∧
    encEnv .even (running .gasCompOpnd 1 [] up).seq.envH (running .gasCompOpnd 1 [] up).seq.envT = some (0x6400, 0x6400) := by
  decide +kernel

theorem test_witness_UpdateWithoutDataKeepsReadings :
    (running .gasUpdate 1 [0xF7] up).gas.st ≠ .uninit ∧ 1 ≤ (running .gasUpdate 1 [0xF7] up).seq.step ∧
    (running .gasUpdate 1 [0xF7] up).seq.buf = [0xF7] ∧ (0xF7 : Byte).getLsbD 3 = false := by decide

/-- Readings just inside and just outside each bound. -/
theorem test_witness_UpdateWithDataJudgesEachReading :
    (running .gasSample 2 [0x08, 0x01, 0x91, 0x00, 0x01, 0, 0, 0, 0] up).gas.st ≠ .uninit ∧
    2 ≤ (running .gasSample 2 [0x08, 0x01, 0x91, 0x00, 0x01, 0, 0, 0, 0] up).seq.step ∧ (0x08 : Byte).getLsbD 3 = true ∧
    256 * (0x01 : Byte).toNat + (0x91 : Byte).toNat = 401 ∧ 256 * (0x01 : Byte).toNat + (0x90 : Byte).toNat = 400 ∧
    256 * (0x1F : Byte).toNat + (0xFF : Byte).toNat = 8191 ∧ 256 * (0x20 : Byte).toNat + (0x00 : Byte).toNat = 8192 ∧
    256 * (0x04 : Byte).toNat + (0xA2 : Byte).toNat = 1186 ∧ 256 * (0x04 : Byte).toNat + (0xA3 : Byte).toNat = 1187 := by decide

/-- A reset; the moves of GAS_ST by a boot and by both kinds of update; a gas command in UNINIT. -/
theorem test_witness_GasStateMovesOnlyAsTabled :
    (pending [.reset true] [] up).resetNext = true ∧
    after (fun t => (t.gas.st, t.seq.phase, t.err)) (step (running .gasInit 2 [] State.reset)) = some (.booted, .idle, .ok) ∧
    after (fun t => (t.gas.st, t.seq.phase, t.err)) (step (running .gasUpdate 1 [0x00] up)) = some (.dataNotReady, .idle, .ok) ∧
    after (fun t => (t.gas.st, t.seq.phase, t.err)) (step (running .gasSample 2 [0x08, 0, 0, 0, 0, 0, 0, 0, 0] up)) =
      some (.dataReady, .idle, .ok) ∧
    after (fun t => (t.gas.st, t.seq.phase, t.err)) (step (running .gasReady 1 [0x08] up)) = some (.booted, .idle, .ok) ∧
    (running .gasInit 2 [] State.reset).seq.phase = .run ∧ decode (running .gasInit 2 [] State.reset).seq.cmd = .ok .gasInit ∧
    State.reset.gas.st = .uninit ∧ (running .gasInit 2 [] State.reset).resetNext = false := by decide

theorem test_witness_GasInitAndReadyRunToCompletion :
    (pending [.wr 0x00 0x10] [.ok [], .ok []] up).seq.phase = .idle ∧ up.gas.st ≠ .uninit ∧
    (pending [.wr 0x00 0x11] [.ok [0x08]] up).env.answers = .ok [0x08] :: [] := by decide

/-- One input for each of the three commands. -/
theorem test_witness_CompensationRunsToCompletion :
    sampled.seq.phase = .idle ∧ sampled.gas.st ≠ .uninit ∧ sampled.climate.thValid = true ∧
    encEnv sampled.params.roundTies 0x4049000000000000 0x4039000000000000 = some (0x6400, 0x6400) ∧
    encEnv sampled.params.roundTies sampled.envHIn sampled.envTIn = some (0x6400, 0x6400) ∧
    encEnv sampled.params.roundTies sampled.climate.humPct sampled.climate.tempC = some (0x57B8, 0x642A) := by decide +kernel

theorem test_witness_UpdatesRunToCompletion :
    (pending [.wr 0x00 0x13] [.ok [0x00]] up).seq.phase = .idle ∧ up.gas.st ≠ .uninit ∧ (0x00 : Byte).getLsbD 3 = false ∧
    (pending [.wr 0x00 0x14] [.ok [0x98], .ok refBurst] up).env.turns = [.wr 0x00 (encode .gasSample)] ∧
    (0x98 : Byte).getLsbD 3 = true ∧ refBurst.length = 8 := by decide

/-- Two states that differ in every host register a running command must not read, the first one completing. -/
theorem test_witness_RunningCommandIgnoresHostRegisters :
    SameCommandView (running .gasCompOpnd 1 [] up)
      { running .gasCompOpnd 1 [] up with
        cmd := 7, done := true, err := .transport, events := 0x7FF, config := { climateAddr := 1, gasAddr := 2 }
        envHIn := 0x7FF8000000000000, envTIn := 0 } ∧
    (running .gasCompOpnd 1 [] up).seq.phase = .run ∧
    after (fun t => t.seq.phase) (exec .gasCompOpnd (running .gasCompOpnd 1 [] up)) = some .idle :=
  ⟨⟨rfl, rfl, rfl, rfl, rfl, rfl⟩, rfl, by decide +kernel⟩

/-- The same where the first one waits for a transaction: the other's live CONFIG is not used. -/
theorem test_witness_RunningCommandIgnoresHostRegisters_transaction :
    let s := running .gasReady 0 [] (pending [] [.ok [0x08]] up)
    SameCommandView s { s with config := { climateAddr := 1, gasAddr := 2 } } ∧
    after (fun t => t.env.busLog) (exec .gasReady { s with config := { climateAddr := 1, gasAddr := 2 } }) =
      some [{ txn := .rdByte 0x5B 0x00, resp := some (.ok [0x08]) }] :=
  ⟨⟨rfl, rfl, rfl, rfl, rfl, rfl⟩, by decide⟩

/-- A host write while a command waits. -/
theorem test_witness_PrecheckIsStableWhileRunning :
    let s := pending [.wr 0x04 0x7FF8000000000000] [] (running .gasCompOpnd 0 [] up)
    s.seq.phase = .run ∧ after (fun t => t.seq.phase) (step s) = some .run ∧ s.resetNext = false := by decide

theorem test_witness_CalibrationUnpackerFollowsByteMap : (calA ++ [0x4B] ++ calE).length = 32 := by decide

/-- The guard, both clamps and the middle, by V6.10, V6.3, V6.2 and V6.5. -/
theorem test_witness_HumidityIsClamped :
    (humOffset 0x40F2C00000000000).isZero = true ∧ (humOffset 0x40FF5A6497936000).isZero = false ∧
    (Fl.ofInt 100).lt (humRaw 40000 (humOffset 0x40FF5A6497936000) refCal.hum) = true ∧
    (humRaw 20032 (humOffset 0x40FF5A6497936000) refCal.hum).lt (Fl.ofInt 0) = true ∧
    (Fl.ofInt 100).lt (humRaw 28000 (humOffset 0x40FF5A6497936000) refCal.hum) = false ∧
    (humRaw 28000 (humOffset 0x40FF5A6497936000) refCal.hum).lt (Fl.ofInt 0) = false := by decide +kernel

/-- The reference calibration lies in the ranges; with `CompensatedSampleIsFinite`. -/
theorem test_witness_CompensatedSampleIsFinite : CalRange .fieldWidth refCal := by
  simp [CalRange, InRange, refCal]

/-- A divisor, an integer at the conversion's exact edge on either side. -/
theorem test_witness_FloatOperationsRoundExactResults :
    (3 : Nat) ≠ 0 ∧ (9007199254740991 : Int).natAbs < 2 ^ 53 ∧ (-9007199254740991 : Int).natAbs < 2 ^ 53 := by decide

/-- The least subnormal, the greatest subnormal, the least normal and the greatest finite number. -/
theorem test_witness_BitPatternsRoundTrip :
    Fl.IsBinary64 (.fin false 1 (-1074)) ∧ Fl.IsBinary64 (.fin true (2 ^ 52 - 1) (-1074)) ∧
    Fl.IsBinary64 (.fin false (2 ^ 52) (-1074)) ∧ Fl.IsBinary64 (.fin false (2 ^ 53 - 1) 971) := by
  simp [Fl.IsBinary64]

/-- A state with both units up and a command running meets the invariant's premises; the reset state's invariant is a
statement of its own. -/
theorem test_witness_EveryStepKeepsTheInvariant : (running .gasUpdate 1 [0x08] up).Inv where
  latched := fun _ => ⟨rfl, rfl⟩
  staged := fun _ => ⟨rfl, fun _ => rfl, fun _ h => nomatch h⟩
  calRange := test_witness_CompensatedSampleIsFinite
  uncalibrated := by decide
  valids := by decide
  unsampled := by decide
  noPressure := by decide
  humRange := fun _ => ⟨by decide +kernel, by decide +kernel⟩
  finite := fun _ => by
    show (Fl.ofBits 0).IsBinary64 ∧ (Fl.ofBits 0).IsBinary64 ∧ (Fl.ofBits 0).IsBinary64 ∧ 0 ≤ (Fl.ofBits 0).toRat ∧
      (Fl.ofBits 0).toRat ≤ 100
    simp only [Fl.ofBits_zero, Fl.toRat_zero]
    simp
  gasUninit := by decide
  drive := by decide
  eco2 := by decide
  tvoc := by decide
  port := by simp [running, up, State.reset, Environment.quiet]

/-- IDLE with no turn, with the sequencer's turn, with a wait; RUN with a wait. -/
theorem test_witness_IdleMachineWaits :
    up.seq.phase = .idle ∧ up.env.turns = [] ∧ (pending [.sequencer] [] up).env.turns = .sequencer :: [] ∧
    (pending [.wait, .rd 1] [] up).env.turns = .wait :: [.rd 1] ∧
    (pending [.wait] [] (running .gasReady 0 [] up)).seq.phase = .run ∧
    (pending [.wait] [] (running .gasReady 0 [] up)).env.turns = .wait :: [] := by decide

end Sys2Proof.Tests
end

section
/-! What rounding to binary64 gives (00_scope.md R12): a rational is bracketed on the binary64 grid of its own binade and the
nearest point of that grid, ties to even, is nearest among all binary64 numbers; each operation rounds its exact result so. -/

namespace Sys2Proof.Machine

/-! ### The other sign -/

/-- The value of the negated number. -/
@[simp] theorem Fl.toRat_neg (x : Fl) : x.neg.toRat = -x.toRat := by
  cases x with
  | nan s fr => simp [Fl.neg, Fl.toRat]
  | inf s => simp [Fl.neg, Fl.toRat]
  | fin s m e => cases s <;> simp [Fl.neg, Fl.toRat]

/-- Negation keeps the form of a number. -/
@[simp] theorem Fl.isBinary64_neg (x : Fl) : x.neg.IsBinary64 ↔ x.IsBinary64 := by
  cases x <;> exact Iff.rfl

/-- Negation keeps the significand. -/
@[simp] theorem Fl.evenSignificand_neg (x : Fl) : x.neg.EvenSignificand ↔ x.EvenSignificand := by
  cases x <;> exact Iff.rfl

/-- Packing under the other sign. -/
theorem Fl.neg_pack (neg : Bool) (k : Nat) (q : Int) : (Fl.pack neg k q).neg = Fl.pack (!neg) k q := by
  unfold Fl.pack
  split <;> split <;> rfl

/-- Rounding to nearest even is symmetric in the sign. -/
theorem Fl.NearestTo.neg {r : Fl} {x : ℚ} (h : r.NearestTo x) : r.neg.NearestTo (-x) := by
  obtain ⟨hr, hnear⟩ := h
  refine ⟨r.isBinary64_neg.2 hr, fun y hy => ?_⟩
  have hflip (a : ℚ) : |-a - x| = |a - -x| := by rw [← abs_neg]; ring_nf
  have hy' := hnear y.neg (y.isBinary64_neg.2 hy)
  rw [Fl.toRat_neg, hflip] at hy'
  rw [Fl.toRat_neg, neg_sub_neg, abs_sub_comm x, Fl.evenSignificand_neg]
  exact ⟨hy'.1, fun ht => (hy'.2 ht).imp_left fun hv => by rw [← hv, neg_neg]⟩

/-- The overflow bound is positive. -/
theorem Fl.overflowBound_pos : 0 < Fl.overflowBound := by
  unfold Fl.overflowBound
  positivity

/-- The result of the negated number is the negated result. -/
theorem Fl.RoundsTo.neg {r : Fl} {x : ℚ} (h : r.RoundsTo x) : r.neg.RoundsTo (-x) := by
  obtain ⟨hfin, hinf⟩ := h
  refine ⟨fun hx => (hfin (by rwa [abs_neg] at hx)).neg, fun hx => ?_⟩
  rw [abs_neg] at hx
  have hx0 : x ≠ 0 := abs_pos.1 (Fl.overflowBound_pos.trans_le hx)
  rw [hinf hx, Fl.neg]
  rcases hx0.lt_or_gt with hlt | hgt
  · simp [hlt, hlt.le]
  · simp [hgt, hgt.le]

/-! ### The grid -/

/-- A number `k` of the grid of step `u` within half a step of `x`: every other one is at least half a step away. -/
theorem half_step_le_of_ne {k j : Int} {u x : ℚ} (hu : 0 < u) (hk : |k * u - x| ≤ u / 2) (hj : j ≠ k) :
    u / 2 ≤ |j * u - x| := by
  obtain ⟨hlo, hhi⟩ := abs_le.1 hk
  rw [le_abs]
  rcases hj.lt_or_gt with hlt | hgt
  · right
    have hstep : (j : ℚ) + 1 ≤ k := by exact_mod_cast hlt
    nlinarith
  · left
    have hstep : (k : ℚ) + 1 ≤ j := by exact_mod_cast hgt
    nlinarith

/-- The magnitude of a finite value. -/
theorem Fl.abs_toRat_fin (neg : Bool) (m : Nat) (e : Int) : |(Fl.fin neg m e).toRat| = m * (2 : ℚ) ^ e := by
  have h : (0 : ℚ) ≤ m * (2 : ℚ) ^ e := by positivity
  cases neg <;> simp [Fl.toRat, abs_of_nonneg h]

/-- A binary64 number lies on the grid of every exponent, or below the grid's normal numbers. -/
theorem Fl.IsBinary64.on_grid {y : Fl} (hy : y.IsBinary64) (q : Int) :
    (∃ j : Int, y.toRat = j * (2 : ℚ) ^ q) ∨ (-1074 < q ∧ y.toRat < 2 ^ 52 * (2 : ℚ) ^ q) := by
  cases y with
  | nan s fr => exact hy.elim
  | inf s => exact hy.elim
  | fin s m e =>
    have hm : m < 2 ^ 53 ∧ -1074 ≤ e := by
      simp only [Fl.IsBinary64] at hy
      omega
    rcases le_or_gt q e with hqe | hqe
    · exact .inl ⟨_, Fl.toRat_eq_scaled s m hqe⟩
    · refine .inr ⟨by omega, (le_abs_self _).trans_lt ?_⟩
      have hm' : (m : ℚ) < 2 ^ 53 := by exact_mod_cast hm.1
      rw [Fl.abs_toRat_fin]
      calc (m : ℚ) * 2 ^ e < 2 ^ 53 * 2 ^ e := by gcongr
        _ ≤ 2 ^ 53 * (2 : ℚ) ^ (q - 1) := by gcongr; exacts [one_le_two, by omega]
        _ = 2 ^ 52 * (2 : ℚ) ^ q := by rw [zpow_sub_one₀ two_ne_zero]; ring

/-- `k * 2^q` is the nonnegative `x` rounded, to nearest with ties to even, on the binary64 grid of the binade `x` lies in. -/
structure Fl.RoundedOnGrid (k : Nat) (q : Int) (x : ℚ) : Prop where
  nonneg : 0 ≤ x
  least : -1074 ≤ q
  low : q = -1074 ∨ 2 ^ 52 * (2 : ℚ) ^ q ≤ x
  high : x < 2 ^ 53 * (2 : ℚ) ^ q
  near : |(k : ℚ) * (2 : ℚ) ^ q - x| ≤ (2 : ℚ) ^ q / 2
  tie : |(k : ℚ) * (2 : ℚ) ^ q - x| = (2 : ℚ) ^ q / 2 → k % 2 = 0

section
variable {k : Nat} {q : Int} {x : ℚ}

/-- The rounded significand is at most 2^53. -/
theorem Fl.RoundedOnGrid.le_two_pow (h : Fl.RoundedOnGrid k q x) : k ≤ 2 ^ 53 := by
  have hu : (0 : ℚ) < (2 : ℚ) ^ q := by positivity
  have hhi := (abs_le.1 h.near).2
  have hk : (k : ℚ) < 2 ^ 53 + 1 := by nlinarith [h.high]
  exact Nat.lt_succ_iff.1 (by exact_mod_cast hk)

/-- The rounded significand of a binade above the lowest is a normal number's. -/
theorem Fl.RoundedOnGrid.normal (h : Fl.RoundedOnGrid k q x) : 2 ^ 52 ≤ k ∨ q = -1074 := by
  refine h.low.symm.imp_left fun hlow => ?_
  have hu : (0 : ℚ) < (2 : ℚ) ^ q := by positivity
  have hlo := (abs_le.1 h.near).1
  have hk : (2 : ℚ) ^ 52 < k + 1 := by nlinarith
  exact Nat.lt_succ_iff.1 (by exact_mod_cast hk)

/-- On its own grid's exponent no binary64 number is nearer, and one as near means a tie. -/
theorem Fl.RoundedOnGrid.nearestTo (h : Fl.RoundedOnGrid k q x) {r : Fl} (hr : r.IsBinary64)
    (hval : r.toRat = k * (2 : ℚ) ^ q) (heven : k % 2 = 0 → r.EvenSignificand) : r.NearestTo x := by
  have hu : (0 : ℚ) < (2 : ℚ) ^ q := by positivity
  have hother {j : Int} (hj : j ≠ k) : (2 : ℚ) ^ q / 2 ≤ |j * (2 : ℚ) ^ q - x| := half_step_le_of_ne hu h.near hj
  refine ⟨hr, fun y hy => ?_⟩
  rw [hval]
  rcases hy.on_grid q with ⟨j, hj⟩ | ⟨hq, hbelow⟩
  · by_cases hjk : j = k
    · rw [hj, hjk, Int.cast_natCast]
      exact ⟨le_rfl, fun _ => .inl rfl⟩
    · rw [hj]
      exact ⟨h.near.trans (hother hjk),
        fun ht => .inr (heven (h.tie (h.near.antisymm (ht ▸ hother hjk))))⟩
  · -- `y` lies below the binade's least number, which is no nearer than `r`.
    have hlow := h.low.resolve_left hq.ne'
    have hleast : |(k : ℚ) * (2 : ℚ) ^ q - x| ≤ x - 2 ^ 52 * (2 : ℚ) ^ q := by
      rw [← abs_of_nonneg (sub_nonneg.2 hlow), abs_sub_comm x]
      by_cases hk : ((2 ^ 52 : Nat) : Int) = k
      · rw [← Int.cast_natCast k, ← hk]
        norm_num
      · exact h.near.trans (by exact_mod_cast hother hk)
    have hlt : |(k : ℚ) * (2 : ℚ) ^ q - x| < |y.toRat - x| := by
      rw [abs_sub_comm y.toRat, abs_of_pos (by linarith : 0 < x - y.toRat)]
      linarith
    exact ⟨hlt.le, fun ht => absurd ht hlt.ne⟩

/-! ### Packing and overflow -/

/-- The overflow bound in units of the greatest exponent. -/
theorem Fl.overflowBound_eq : Fl.overflowBound = (2 ^ 53 - 1 / 2) * (2 : ℚ) ^ (971 : Int) := by
  rw [Fl.overflowBound, show (971 : Int) = 970 + 1 from rfl, zpow_add_one₀ two_ne_zero]
  ring

/-- A significand past the greatest exponent packs to an infinity. -/
theorem Fl.pack_of_overflow (neg : Bool) (h : 971 < q ∨ q = 971 ∧ k = 2 ^ 53) : Fl.pack neg k q = .inf neg := by
  unfold Fl.pack
  split
  · exact if_pos (by omega)
  · exact if_pos (by omega)

/-- Otherwise it packs to the number itself, where 2^53 carries into the exponent. -/
theorem Fl.pack_of_fits (neg : Bool) (h : ¬ (971 < q ∨ q = 971 ∧ k = 2 ^ 53)) :
    Fl.pack neg k q = if k = 2 ^ 53 then .fin neg (2 ^ 52) (q + 1) else .fin neg k q := by
  unfold Fl.pack
  split
  · exact if_neg (by omega)
  · exact if_neg (by omega)

/-- Packing a number that fits keeps its value. -/
theorem Fl.toRat_pack (neg : Bool) (h : ¬ (971 < q ∨ q = 971 ∧ k = 2 ^ 53)) :
    (Fl.pack neg k q).toRat = (Fl.fin neg k q).toRat := by
  rw [Fl.pack_of_fits neg h]
  split
  · rename_i hk
    rw [hk, Fl.toRat, Fl.toRat, zpow_add_one₀ two_ne_zero]
    push_cast
    ring
  · rfl

/-- Packing an even significand that fits gives an even one. -/
theorem Fl.evenSignificand_pack (neg : Bool) (h : ¬ (971 < q ∨ q = 971 ∧ k = 2 ^ 53)) (hk : k % 2 = 0) :
    (Fl.pack neg k q).EvenSignificand := by
  rw [Fl.pack_of_fits neg h]
  split
  · rw [Fl.EvenSignificand]
    norm_num
  · exact hk

/-- A number whose rounding overflows lies past the bound. -/
theorem Fl.RoundedOnGrid.overflowBound_le (h : Fl.RoundedOnGrid k q x) (hover : 971 < q ∨ q = 971 ∧ k = 2 ^ 53) :
    Fl.overflowBound ≤ x := by
  rw [Fl.overflowBound_eq]
  rcases hover with hq | ⟨rfl, rfl⟩
  · have hlow := h.low.resolve_left (by omega)
    have hu : (2 : ℚ) ^ (972 : Int) ≤ (2 : ℚ) ^ q := zpow_le_zpow_right₀ one_le_two (by omega)
    rw [show (972 : Int) = 971 + 1 from rfl, zpow_add_one₀ two_ne_zero] at hu
    have hpos : (0 : ℚ) < (2 : ℚ) ^ (971 : Int) := by positivity
    generalize (2 : ℚ) ^ (971 : Int) = u at *
    linarith
  · have hhi := (abs_le.1 h.near).2
    generalize (2 : ℚ) ^ (971 : Int) = u at *
    push_cast at hhi
    linarith

/-- A number whose rounding fits lies below the bound: at the bound itself the greatest significand, being odd, would lose the
tie. -/
theorem Fl.RoundedOnGrid.lt_overflowBound (h : Fl.RoundedOnGrid k q x)
    (hfits : ¬ (971 < q ∨ q = 971 ∧ k = 2 ^ 53)) : x < Fl.overflowBound := by
  rw [Fl.overflowBound_eq]
  have hpos : (0 : ℚ) < (2 : ℚ) ^ (971 : Int) := by positivity
  rcases (show q ≤ 971 by omega).lt_or_eq with hq | rfl
  · have hu : (2 : ℚ) ^ (q + 1) ≤ (2 : ℚ) ^ (971 : Int) := zpow_le_zpow_right₀ one_le_two (by omega)
    rw [zpow_add_one₀ two_ne_zero] at hu
    have hhigh := h.high
    generalize (2 : ℚ) ^ (971 : Int) = u at *
    linarith
  · by_contra hle
    have hk : k ≤ 2 ^ 53 - 1 := by have := h.le_two_pow; omega
    have hk' : (k : ℚ) ≤ 2 ^ 53 - 1 := by
      have : (k : ℚ) + 1 ≤ 2 ^ 53 := by exact_mod_cast (by omega : k + 1 ≤ 2 ^ 53)
      linarith
    have hlo := (abs_le.1 h.near).1
    have htie := h.tie
    have hnear := h.near
    generalize (2 : ℚ) ^ (971 : Int) = u at *
    have hkeq : (2 : ℚ) ^ 53 ≤ k + 1 := by nlinarith
    have heven := htie (hnear.antisymm (le_abs.2 (.inr (by nlinarith))))
    have hodd : 2 ^ 53 ≤ k + 1 := by exact_mod_cast hkeq
    omega

/-- The packed number is the correctly rounded result. -/
theorem Fl.RoundedOnGrid.pack_roundsTo (h : Fl.RoundedOnGrid k q x) : (Fl.pack false k q).RoundsTo x := by
  rw [Fl.RoundsTo, abs_of_nonneg h.nonneg]
  by_cases hover : 971 < q ∨ q = 971 ∧ k = 2 ^ 53
  · refine ⟨fun hx => absurd hx (h.overflowBound_le hover).not_gt, fun _ => ?_⟩
    rw [Fl.pack_of_overflow false hover, decide_eq_false h.nonneg.not_gt]
  · refine ⟨fun _ => h.nearestTo ?_ ?_ (Fl.evenSignificand_pack false hover),
      fun hx => absurd (h.lt_overflowBound hover) hx.not_gt⟩
    · refine (Fl.pack_cases h.le_two_pow h.least h.normal).resolve_right ?_
      rw [Fl.pack_of_fits false hover]
      split <;> simp
    · rw [Fl.toRat_pack false hover, Fl.toRat]
      simp

end

/-! ### Rounding -/

/-- Negation commutes with rounding. -/
theorem Fl.neg_round (neg : Bool) (m : Nat) (e : Int) : (Fl.round neg m e).neg = Fl.round (!neg) m e := by
  unfold Fl.round
  split
  · rfl
  · simp only
    split <;> exact Fl.neg_pack neg _ _

/-- The integer `m` rounds as the exact `v` does: it is `v`, or it is odd and of more than 54 bits, and `v` lies strictly between
its even neighbours (the quotient's low bit that stands for a remainder). -/
def Fl.StandsFor (m : Nat) (v : ℚ) : Prop :=
  v = m ∨ (m % 2 = 1 ∧ 2 ^ 54 ≤ m ∧ |v - m| < 1)

/-- An integer stands for itself. -/
theorem Fl.StandsFor.refl (m : Nat) : Fl.StandsFor m m := .inl rfl

section
variable {m : Nat} {v : ℚ} {e : Int}

/-- A number of more than 54 bits has that bit length. -/
theorem Fl.lt_bitLength (h : 2 ^ 54 ≤ m) : 54 < Fl.bitLength m :=
  (Nat.pow_lt_pow_iff_right one_lt_two).1 (h.trans_lt (Fl.lt_two_pow_bitLength m))

/-- A number of at most 53 bits has that bit length. -/
theorem Fl.bitLength_le (h : m < 2 ^ 53) : Fl.bitLength m ≤ 53 := by
  rcases eq_or_ne m 0 with rfl | hm
  · simp [Fl.bitLength]
  · have hlt := (Nat.pow_lt_pow_iff_right one_lt_two).1 ((Fl.two_pow_bitLength_le hm).trans_lt h)
    omega

/-- What `m` stands for is below the power of two above `m`. -/
theorem Fl.StandsFor.lt_two_pow (h : Fl.StandsFor m v) : v < 2 ^ Fl.bitLength m := by
  have hm : (m : ℚ) + 1 ≤ 2 ^ Fl.bitLength m := by exact_mod_cast Fl.lt_two_pow_bitLength m
  rcases h with rfl | ⟨-, -, habs⟩
  · linarith
  · linarith [(abs_lt.1 habs).2]

/-- And not below the power of two below `m`. -/
theorem Fl.StandsFor.two_pow_le (h : Fl.StandsFor m v) (hm : m ≠ 0) : (2 : ℚ) ^ (Fl.bitLength m - 1) ≤ v := by
  have hle := Fl.two_pow_bitLength_le hm
  rcases h with rfl | ⟨hodd, hbig, habs⟩
  · exact_mod_cast hle
  · obtain ⟨c, hc⟩ : ∃ c, Fl.bitLength m - 1 = c + 1 :=
      ⟨Fl.bitLength m - 2, by have := Fl.lt_bitLength hbig; omega⟩
    rw [hc, pow_succ] at hle ⊢
    have hlt : ((2 ^ c * 2 + 1 : Nat) : ℚ) ≤ m := by exact_mod_cast (by omega : 2 ^ c * 2 + 1 ≤ m)
    push_cast at hlt
    linarith [(abs_lt.1 habs).1]

/-- A significand that is not exact is rounded off by at least two bits. -/
theorem Fl.StandsFor.exact_or_gridExp (h : Fl.StandsFor m v) (e : Int) : v = m ∨ e + 2 ≤ Fl.gridExp m e := by
  refine h.imp_right fun ⟨_, hbig, _⟩ => ?_
  have hb := Fl.lt_bitLength hbig
  unfold Fl.gridExp
  omega

/-- The grid exponent is that of the binade of the number stood for; so a significand near it is its rounding. -/
theorem Fl.StandsFor.roundedOnGrid (h : Fl.StandsFor m v) (hm : m ≠ 0) {k : Nat} {q : Int} (hq : Fl.gridExp m e = q)
    (near : |(k : ℚ) * (2 : ℚ) ^ q - v * (2 : ℚ) ^ e| ≤ (2 : ℚ) ^ q / 2)
    (tie : |(k : ℚ) * (2 : ℚ) ^ q - v * (2 : ℚ) ^ e| = (2 : ℚ) ^ q / 2 → k % 2 = 0) :
    Fl.RoundedOnGrid k q (v * (2 : ℚ) ^ e) := by
  have hlo := h.two_pow_le hm
  have hhi := h.lt_two_pow
  have hb : 1 ≤ Fl.bitLength m := by simp [Fl.bitLength, hm]
  unfold Fl.gridExp at hq
  generalize Fl.bitLength m = b at *
  have hlo0 : (0 : ℚ) < 2 ^ (b - 1) := by positivity
  refine ⟨by have := hlo0.trans_le hlo; positivity, by omega, ?_, ?_, near, tie⟩
  · refine or_iff_not_imp_left.2 fun hne => ?_
    calc 2 ^ 52 * (2 : ℚ) ^ q = 2 ^ (b - 1) * (2 : ℚ) ^ e := by
          rw [← zpow_natCast, ← zpow_natCast, ← zpow_add₀ two_ne_zero, ← zpow_add₀ two_ne_zero]
          congr 1
          omega
      _ ≤ v * (2 : ℚ) ^ e := by gcongr
  · calc v * (2 : ℚ) ^ e < 2 ^ b * (2 : ℚ) ^ e := by gcongr
      _ = (2 : ℚ) ^ (b + e) := by rw [zpow_add₀ two_ne_zero, zpow_natCast]
      _ ≤ (2 : ℚ) ^ (53 + q) := zpow_le_zpow_right₀ one_le_two (by omega)
      _ = 2 ^ 53 * (2 : ℚ) ^ q := by rw [zpow_add₀ two_ne_zero]; rfl

/-- On a grid no coarser than the number's own exponent its significand is exact. -/
theorem Fl.shiftLeft_mul_zpow (m : Nat) {q : Int} (h : q ≤ e) :
    ((m * 2 ^ (e - q).toNat : Nat) : ℚ) * (2 : ℚ) ^ q = m * (2 : ℚ) ^ e := by
  obtain ⟨d, rfl⟩ : ∃ d : Nat, e = q + d := ⟨(e - q).toNat, by omega⟩
  rw [add_sub_cancel_left, Int.toNat_natCast, zpow_add₀ two_ne_zero, zpow_natCast]
  push_cast
  ring

/-- The even rounding of `m / 2^d` is at most half a unit away, and even at a tie. -/
theorem Fl.two_mul_abs_shiftEven_sub_le (m d : Nat) :
    2 * |((Fl.shiftEven m d * 2 ^ d : Nat) : Int) - m| ≤ (2 ^ d : Nat) ∧
    (2 * |((Fl.shiftEven m d * 2 ^ d : Nat) : Int) - m| = (2 ^ d : Nat) → Fl.shiftEven m d % 2 = 0) := by
  have hdiv := Nat.div_add_mod' m (2 ^ d)
  have hmod := Nat.mod_lt m (Nat.two_pow_pos d)
  have htie := Fl.shiftEven_tie m d
  rcases Fl.shiftEven_spec m d with ⟨hk, hr⟩ | ⟨hk, hr⟩
  · have habs : |((Fl.shiftEven m d * 2 ^ d : Nat) : Int) - m| = (m % 2 ^ d : Nat) := by
      rw [hk, abs_sub_comm, abs_of_nonneg] <;> omega
    exact ⟨by omega, fun h => htie (by omega)⟩
  · have habs : |((Fl.shiftEven m d * 2 ^ d : Nat) : Int) - m| = (2 ^ d - m % 2 ^ d : Nat) := by
      rw [hk, add_one_mul, abs_of_nonneg] <;> omega
    exact ⟨by omega, fun h => htie (by omega)⟩

/-- The even rounding of `m` is that of the number `m` stands for: an odd `m` is a whole unit off every tie. -/
theorem Fl.StandsFor.shiftEven_near (h : Fl.StandsFor m v) {d : Nat} (hd : v = m ∨ 2 ≤ d) :
    |(Fl.shiftEven m d : ℚ) * 2 ^ d - v| ≤ 2 ^ d / 2 ∧
    (|(Fl.shiftEven m d : ℚ) * 2 ^ d - v| = 2 ^ d / 2 → Fl.shiftEven m d % 2 = 0) := by
  obtain ⟨hnear, htie⟩ := Fl.two_mul_abs_shiftEven_sub_le m d
  generalize Fl.shiftEven m d = k at *
  rcases eq_or_ne v m with rfl | hne
  · constructor
    · have hcast : 2 * |(k : ℚ) * 2 ^ d - m| ≤ 2 ^ d := by exact_mod_cast hnear
      linarith
    · intro heq
      have hcast : 2 * |(k : ℚ) * 2 ^ d - m| = 2 ^ d := by linarith
      exact htie (by exact_mod_cast hcast)
  · obtain ⟨hodd, -, habs⟩ := h.resolve_left hne
    obtain ⟨c, rfl⟩ : ∃ c, d = c + 2 := ⟨d - 2, by have := hd.resolve_left hne; omega⟩
    have hgap : 2 * |((k * 2 ^ (c + 2) : Nat) : Int) - m| + 2 ≤ (2 ^ (c + 2) : Nat) := by
      rw [Int.abs_eq_natAbs, pow_add, ← mul_assoc] at hnear ⊢
      generalize k * 2 ^ c = z at *
      omega
    have hcast : 2 * |(k : ℚ) * 2 ^ (c + 2) - m| + 2 ≤ 2 ^ (c + 2) := by exact_mod_cast hgap
    have htri := abs_sub_le ((k : ℚ) * 2 ^ (c + 2)) m v
    rw [abs_sub_comm (m : ℚ)] at htri
    exact ⟨by linarith, fun heq => by linarith⟩

/-- Rounding by a left shift is exact. -/
theorem Fl.StandsFor.roundedOnGrid_of_le (h : Fl.StandsFor m v) (hm : m ≠ 0) (hq : Fl.gridExp m e ≤ e) :
    Fl.RoundedOnGrid (m * 2 ^ (e - Fl.gridExp m e).toNat) (Fl.gridExp m e) (v * (2 : ℚ) ^ e) := by
  have hv : v = m := (h.exact_or_gridExp e).resolve_right (by omega)
  have hu : (0 : ℚ) < (2 : ℚ) ^ Fl.gridExp m e / 2 := by positivity
  have hzero : |((m * 2 ^ (e - Fl.gridExp m e).toNat : Nat) : ℚ) * (2 : ℚ) ^ Fl.gridExp m e - v * (2 : ℚ) ^ e| = 0 := by
    rw [Fl.shiftLeft_mul_zpow m hq, hv, sub_self, abs_zero]
  exact h.roundedOnGrid hm rfl (hzero.trans_le hu.le) fun ht => absurd (hzero.symm.trans ht) hu.ne

/-- Rounding by a right shift is to nearest, ties to even. -/
theorem Fl.StandsFor.roundedOnGrid_of_lt (h : Fl.StandsFor m v) (hm : m ≠ 0) (hq : e < Fl.gridExp m e) :
    Fl.RoundedOnGrid (Fl.shiftEven m (Fl.gridExp m e - e).toNat) (Fl.gridExp m e) (v * (2 : ℚ) ^ e) := by
  have hexact := h.exact_or_gridExp e
  have hgrid := h.roundedOnGrid (e := e) hm rfl (k := Fl.shiftEven m (Fl.gridExp m e - e).toNat)
  generalize Fl.gridExp m e = q at *
  obtain ⟨d, rfl⟩ : ∃ d : Nat, q = e + d := ⟨(q - e).toNat, by omega⟩
  rw [add_sub_cancel_left, Int.toNat_natCast] at *
  obtain ⟨hnear, htie⟩ := h.shiftEven_near (hexact.imp_right fun hle => (by omega : 2 ≤ d))
  have hu : (0 : ℚ) < (2 : ℚ) ^ e := by positivity
  have hscale : |(Fl.shiftEven m d : ℚ) * (2 : ℚ) ^ (e + d) - v * (2 : ℚ) ^ e| =
      |(Fl.shiftEven m d : ℚ) * 2 ^ d - v| * (2 : ℚ) ^ e := by
    rw [← abs_of_pos hu, ← abs_mul, abs_of_pos hu, zpow_add₀ two_ne_zero, zpow_natCast]
    ring_nf
  have hunit : (2 : ℚ) ^ (e + d) / 2 = 2 ^ d / 2 * (2 : ℚ) ^ e := by
    rw [zpow_add₀ two_ne_zero, zpow_natCast]
    ring
  rw [hscale, hunit] at hgrid
  exact hgrid (by gcongr) fun ht => htie (mul_right_cancel₀ hu.ne' ht)

/-- Rounding a number already on its grid, below the greatest exponent, keeps its value. -/
theorem Fl.toRat_round_of_gridExp_le (neg : Bool) (hq : Fl.gridExp m e ≤ e) (hmax : Fl.gridExp m e < 971) :
    (Fl.round neg m e).toRat = (Fl.fin neg m e).toRat := by
  unfold Fl.round
  split
  · rename_i hm
    rw [hm, Fl.zero, Fl.toRat_zero, Fl.toRat_zero]
  · simp only
    rw [if_pos hq, Fl.toRat_pack neg (by omega), Fl.toRat, Fl.toRat, mul_assoc, Fl.shiftLeft_mul_zpow m hq, mul_assoc]

/-- A zero is the rounded 0. -/
theorem Fl.zero_roundsTo (neg : Bool) : (Fl.zero neg).RoundsTo 0 := by
  rw [Fl.RoundsTo, abs_zero]
  refine ⟨fun _ => ⟨Fl.isBinary64_zero neg, fun y _ => ?_⟩, fun h => absurd h Fl.overflowBound_pos.not_ge⟩
  exact ⟨by simp [Fl.zero], fun _ => .inr (Nat.zero_mod 2)⟩

/-- Rounding is correct for what the significand stands for (00_scope.md R12). -/
theorem Fl.StandsFor.round_roundsTo (h : Fl.StandsFor m v) (neg : Bool) (e : Int) :
    (Fl.round neg m e).RoundsTo ((if neg then -1 else 1) * v * (2 : ℚ) ^ e) := by
  have hpos : (Fl.round false m e).RoundsTo (v * (2 : ℚ) ^ e) := by
    unfold Fl.round
    split
    · rename_i hm
      subst hm
      have hv : v = 0 := by simpa [Fl.StandsFor] using h
      rw [hv, zero_mul]
      exact Fl.zero_roundsTo false
    · rename_i hm
      simp only
      split
      · exact (h.roundedOnGrid_of_le hm ‹_›).pack_roundsTo
      · exact (h.roundedOnGrid_of_lt hm (by omega)).pack_roundsTo
  cases neg with
  | false => simpa using hpos
  | true => simpa [Fl.neg_round] using hpos.neg

/-- Rounding a value gives the correctly rounded number. -/
theorem Fl.round_roundsTo (neg : Bool) (m : Nat) (e : Int) : (Fl.round neg m e).RoundsTo (Fl.fin neg m e).toRat :=
  (Fl.StandsFor.refl m).round_roundsTo neg e

end

/-! ### The operations -/

/-- An integer as a value on the grid of exponent `q`. -/
theorem Fl.toRat_natAbs (s q : Int) : (Fl.fin (decide (s < 0)) s.natAbs q).toRat = s * (2 : ℚ) ^ q := by
  rw [Fl.toRat, Nat.cast_natAbs]
  rcases lt_or_ge s 0 with hs | hs
  · simp [hs, abs_of_neg hs]
  · simp [hs.not_gt, abs_of_nonneg hs]

/-- The sign of a product. -/
theorem Fl.sign_bne (a b : Bool) : (if a != b then -1 else 1 : ℚ) = (if a then -1 else 1) * (if b then -1 else 1) := by
  cases a <;> cases b <;> norm_num

section
variable (a b : Bool) (m n : Nat) (e f : Int)

/-- A sum is the exact sum rounded. -/
theorem Fl.add_roundsTo :
    ((Fl.fin a m e).add (.fin b n f)).RoundsTo ((Fl.fin a m e).toRat + (Fl.fin b n f).toRat) := by
  rw [Fl.toRat_eq_scaled a m (min_le_left e f), Fl.toRat_eq_scaled b n (min_le_right e f), ← add_mul, ← Int.cast_add]
  simp only [Fl.add]
  split
  · rename_i hs
    rw [hs, Int.cast_zero, zero_mul]
    exact Fl.zero_roundsTo _
  · rw [← Fl.toRat_natAbs]
    exact Fl.round_roundsTo _ _ _

/-- A difference is the exact difference rounded. -/
theorem Fl.sub_roundsTo :
    ((Fl.fin a m e).sub (.fin b n f)).RoundsTo ((Fl.fin a m e).toRat - (Fl.fin b n f).toRat) := by
  rw [sub_eq_add_neg, ← Fl.toRat_neg]
  exact Fl.add_roundsTo a (!b) m n e f

/-- A product is the exact product rounded. -/
theorem Fl.mul_roundsTo :
    ((Fl.fin a m e).mul (.fin b n f)).RoundsTo ((Fl.fin a m e).toRat * (Fl.fin b n f).toRat) := by
  have hval : (Fl.fin a m e).toRat * (Fl.fin b n f).toRat = (Fl.fin (a != b) (m * n) (e + f)).toRat := by
    simp only [Fl.toRat, Fl.sign_bne, zpow_add₀ (two_ne_zero' ℚ)]
    push_cast
    ring
  rw [hval]
  exact Fl.round_roundsTo _ _ _

/-- A quotient with its remainder as a low bit stands for the exact quotient, doubled. -/
theorem Fl.standsFor_quotient {n : Nat} (hn : n ≠ 0) :
    let t := m * 2 ^ (55 + Fl.bitLength n)
    Fl.StandsFor (2 * (t / n) + (if t % n = 0 then 0 else 1)) (2 * t / n) := by
  intro t
  have hnpos : 0 < n := Nat.pos_of_ne_zero hn
  have hnQ : (0 : ℚ) < n := by exact_mod_cast hnpos
  have hdiv : (n : ℚ) * (t / n : Nat) + (t % n : Nat) = t := by exact_mod_cast Nat.div_add_mod t n
  split
  · rename_i hr
    left
    rw [hr, Nat.cast_zero, add_zero] at hdiv
    rw [div_eq_iff hnQ.ne', ← hdiv]
    push_cast
    ring
  · rename_i hr
    have hm : 1 ≤ m := by
      rcases Nat.eq_zero_or_pos m with rfl | hm
      · simp [t] at hr
      · exact hm
    have hbig : 2 ^ 55 ≤ t / n := by
      rw [Nat.le_div_iff_mul_le hnpos]
      calc 2 ^ 55 * n ≤ 2 ^ 55 * 2 ^ Fl.bitLength n := by gcongr; exact (Fl.lt_two_pow_bitLength n).le
        _ = 1 * 2 ^ (55 + Fl.bitLength n) := by rw [one_mul, pow_add]
        _ ≤ t := Nat.mul_le_mul_right _ hm
    have hrpos : (0 : ℚ) < (t % n : Nat) := by exact_mod_cast Nat.pos_of_ne_zero hr
    have hrlt : ((t % n : Nat) : ℚ) < n := by exact_mod_cast Nat.mod_lt t hnpos
    have herr : (2 * t / n : ℚ) - (2 * (t / n) + 1 : Nat) = (2 * (t % n : Nat) - n) / n := by
      rw [← hdiv]
      push_cast
      field_simp
      ring
    refine .inr ⟨by omega, by omega, ?_⟩
    rw [herr, abs_lt, lt_div_iff₀ hnQ, div_lt_iff₀ hnQ]
    constructor <;> linarith

/-- A quotient by a nonzero number is the exact quotient rounded. -/
theorem Fl.div_roundsTo (hn : n ≠ 0) :
    ((Fl.fin a m e).div (.fin b n f)).RoundsTo ((Fl.fin a m e).toRat / (Fl.fin b n f).toRat) := by
  have hround := (Fl.standsFor_quotient m hn).round_roundsTo (a != b) (e - f - ((55 + Fl.bitLength n : Nat) : Int) - 1)
  simp only [Fl.div, if_neg hn, Fl.quotient]
  convert hround using 1
  have hnQ : (n : ℚ) ≠ 0 := by exact_mod_cast hn
  simp only [Fl.toRat, Fl.sign_bne, zpow_sub₀ (two_ne_zero' ℚ), zpow_natCast, zpow_one]
  push_cast
  cases b <;> field_simp <;> norm_num

/-- The comparison of two finite numbers is that of their values. -/
theorem Fl.lt_iff_toRat_lt : (Fl.fin a m e).lt (.fin b n f) = true ↔ (Fl.fin a m e).toRat < (Fl.fin b n f).toRat := by
  have hu : (0 : ℚ) < (2 : ℚ) ^ min e f := by positivity
  rw [Fl.toRat_eq_scaled a m (min_le_left e f), Fl.toRat_eq_scaled b n (min_le_right e f), mul_lt_mul_iff_left₀ hu,
    Int.cast_lt, Fl.lt, decide_eq_true_iff]

/-- The test for zero is that of the value. -/
theorem Fl.isZero_iff_toRat_eq_zero : (Fl.fin a m e).isZero = true ↔ (Fl.fin a m e).toRat = 0 := by
  rw [← abs_eq_zero, Fl.abs_toRat_fin, mul_eq_zero_iff_right (by positivity), Nat.cast_eq_zero, Fl.isZero, beq_iff_eq]

end

/-- The conversion of an integer below 2^53 is exact (00_scope.md R12). -/
theorem Fl.ofInt_exact {k : Int} (hk : k.natAbs < 2 ^ 53) : (Fl.ofInt k).IsBinary64 ∧ (Fl.ofInt k).toRat = k := by
  have hround := Fl.round_roundsTo (decide (k < 0)) k.natAbs 0
  have hval := (Fl.toRat_natAbs k 0).trans (by rw [zpow_zero, mul_one])
  have hgrid : Fl.gridExp k.natAbs 0 ≤ 0 := by
    have := Fl.bitLength_le hk
    unfold Fl.gridExp
    omega
  have hbound : |(k : ℚ)| < Fl.overflowBound := by
    have hk' : |(k : ℚ)| < 2 ^ 53 := by
      rw [← Int.cast_abs, Int.abs_eq_natAbs]
      exact_mod_cast hk
    have hpow : (1 : ℚ) ≤ 2 ^ (970 : Int) := one_le_zpow₀ one_le_two (by omega)
    unfold Fl.overflowBound
    generalize (2 : ℚ) ^ (970 : Int) = u at *
    linarith
  refine ⟨((hval ▸ hround).1 hbound).1, ?_⟩
  exact (Fl.toRat_round_of_gridExp_le _ hgrid (by omega)).trans hval

/-- Nothing is below a NaN. -/
@[simp] theorem Fl.lt_nan (a : Bool) (fr : BitVec 52) (y : Fl) : y.lt (.nan a fr) = false := by
  cases y <;> rfl

/-- Settles O55: each operation rounds the exact result, the conversion is exact, and the comparisons are those of the values. -/
theorem floatOperationsRoundExactResults : Obligations.FloatOperationsRoundExactResults := by
  unfold Obligations.FloatOperationsRoundExactResults
  refine ⟨fun a b m n e f => ?_, fun k hk => Fl.ofInt_exact hk, fun a b m n e f => ?_, fun a b m e => ?_, fun a fr y => ?_⟩
  · exact ⟨Fl.add_roundsTo a b m n e f, Fl.sub_roundsTo a b m n e f, Fl.mul_roundsTo a b m n e f,
      Fl.div_roundsTo a b m n e f⟩
  · exact ⟨Fl.lt_iff_toRat_lt a b m n e f, Fl.isZero_iff_toRat_eq_zero a m e⟩
  · exact ⟨rfl, rfl, rfl, rfl⟩
  · exact ⟨rfl, Fl.lt_nan a fr y, rfl⟩

end Sys2Proof.Machine
end

section
/-! Bounded floating-point results (41_compensation.md R174, R180): a binary64 number of magnitude at most a power of two stays one
under the operations of the compensation, so with the coefficients of 10_state.md R32 no operation overflows and none gives a NaN. -/

namespace Sys2Proof.Machine

/-! ### The bit pattern of a number (20_memory.md R74) -/

/-- The value of a bit pattern given by its three fields. -/
theorem Fl.ofBits_append (neg : Bool) (ex : BitVec 11) (fr : BitVec 52) :
    Fl.ofBits (Fl.signBit neg ++ ex ++ fr) =
      if ex.toNat = 0 then .fin neg fr.toNat (-1074)
      else if ex.toNat = 2047 then (if fr = 0 then .inf neg else .nan neg fr)
      else .fin neg (2 ^ 52 + fr.toNat) ((ex.toNat : Int) - 1075) := by
  have hsign : (Fl.signBit neg ++ ex ++ fr).msb = neg := by
    simp only [Fl.signBit, BitVec.msb_append]
    cases neg <;> rfl
  have hex : (Fl.signBit neg ++ ex ++ fr).extractLsb' 52 11 = ex := by
    rw [BitVec.extractLsb'_append_eq_of_le le_rfl, Nat.sub_self, BitVec.extractLsb'_append_eq_right]
  have hfr : (Fl.signBit neg ++ ex ++ fr).extractLsb' 0 52 = fr := BitVec.extractLsb'_append_eq_right
  rw [Fl.ofBits, hsign, hex, hfr]

/-- The bit pattern of a binary64 number gives it back. -/
theorem Fl.ofBits_toBits {x : Fl} (h : x.IsBinary64) : Fl.ofBits x.toBits = x := by
  cases x with
  | nan s fr => exact h.elim
  | inf s => exact h.elim
  | fin s m e =>
    rcases h with ⟨hm, rfl⟩ | ⟨hlo, hhi, helo, hehi⟩
    · rw [Fl.toBits, if_pos hm, Fl.ofBits_append, if_pos (show (0 : BitVec 11).toNat = 0 from rfl),
        BitVec.toNat_ofNat, Nat.mod_eq_of_lt hm]
    · have hex : (BitVec.ofNat 11 (e + 1075).toNat).toNat = (e + 1075).toNat := by
        rw [BitVec.toNat_ofNat, Nat.mod_eq_of_lt (by omega)]
      have hfr : (BitVec.ofNat 52 (m - 2 ^ 52)).toNat = m - 2 ^ 52 := by
        rw [BitVec.toNat_ofNat, Nat.mod_eq_of_lt (by omega)]
      rw [Fl.toBits, if_neg hlo.not_gt, Fl.ofBits_append, hex, hfr, if_neg (by omega), if_neg (by omega),
        Nat.add_sub_cancel' hlo, Int.toNat_of_nonneg (by omega), add_sub_cancel_right]

/-! ### Bounded numbers -/

/-- A binary64 number of magnitude at most `2^k`. -/
def Fl.Within (k : Nat) (x : Fl) : Prop := x.IsBinary64 ∧ |x.toRat| ≤ 2 ^ k

/-- A binary64 number is a finite value. -/
theorem Fl.IsBinary64.exists_fin {x : Fl} (h : x.IsBinary64) : ∃ s m e, x = .fin s m e := by
  cases x with
  | nan s fr => exact h.elim
  | inf s => exact h.elim
  | fin s m e => exact ⟨s, m, e, rfl⟩

/-- A power of two up to `2^1000` is a binary64 number. -/
theorem Fl.exists_toRat_two_pow {k : Nat} (hk : k ≤ 1000) :
    ∃ y : Fl, y.IsBinary64 ∧ y.toRat = 2 ^ k := by
  refine ⟨.fin false (2 ^ 52) ((k : Int) - 52), .inr ⟨le_rfl, by norm_num, by omega, by omega⟩, ?_⟩
  rw [Fl.toRat, if_neg Bool.false_ne_true, one_mul, zpow_sub₀ two_ne_zero, zpow_natCast]
  push_cast
  rw [mul_div_assoc', mul_comm]
  exact mul_div_cancel_right₀ _ (by norm_num)

/-- Powers of two up to `2^1000` lie below the overflow bound. -/
theorem Fl.two_pow_lt_overflowBound {k : Nat} (hk : k ≤ 1000) : (2 : ℚ) ^ k < Fl.overflowBound := by
  calc (2 : ℚ) ^ k ≤ 2 ^ 1000 := pow_le_pow_right₀ one_le_two hk
    _ = 2 ^ 30 * (2 : ℚ) ^ (970 : Int) := by rw [show (970 : Int) = (970 : Nat) from rfl, zpow_natCast, ← pow_add]
    _ < Fl.overflowBound := by rw [Fl.overflowBound]; gcongr; norm_num

/-- Rounding to nearest does not pass a binary64 number. -/
theorem Fl.NearestTo.toRat_le {r y : Fl} {x : ℚ} (h : r.NearestTo x) (hy : y.IsBinary64) (hx : x ≤ y.toRat) :
    r.toRat ≤ y.toRat := by
  by_contra hlt
  rw [not_le] at hlt
  have hnear := (h.2 y hy).1
  rw [abs_of_nonneg (by linarith), abs_of_nonneg (by linarith)] at hnear
  linarith

/-- The rounded result of a bounded exact result is bounded, and finite. -/
theorem Fl.RoundsTo.within {r : Fl} {x : ℚ} {k : Nat} (h : r.RoundsTo x) (hk : k ≤ 1000) (hx : |x| ≤ 2 ^ k) :
    r.Within k := by
  obtain ⟨y, hy, hval⟩ := Fl.exists_toRat_two_pow hk
  obtain ⟨hlo, hhi⟩ := abs_le.1 hx
  have hnear := h.1 (hx.trans_lt (Fl.two_pow_lt_overflowBound hk))
  have hup := hnear.toRat_le hy (hval ▸ hhi)
  have hdown := hnear.neg.toRat_le hy (by rw [hval]; linarith)
  rw [Fl.toRat_neg] at hdown
  exact ⟨hnear.1, abs_le.2 ⟨by linarith, by linarith⟩⟩

section
variable {x y : Fl} {j k : Nat}

/-- A bound may be weakened. -/
theorem Fl.Within.mono (hx : x.Within j) (h : j ≤ k) : x.Within k :=
  ⟨hx.1, hx.2.trans (pow_le_pow_right₀ one_le_two h)⟩

/-- The sum of bounded numbers. -/
theorem Fl.Within.add (hx : x.Within j) (hy : y.Within k) (h : max j k + 1 ≤ 1000) : (x.add y).Within (max j k + 1) := by
  have hxy : |x.toRat + y.toRat| ≤ 2 ^ (max j k + 1) := by
    have hx' := (hx.mono (le_max_left j k)).2
    have hy' := (hy.mono (le_max_right j k)).2
    rw [pow_succ]
    linarith [abs_add_le x.toRat y.toRat]
  obtain ⟨a, m, e, rfl⟩ := hx.1.exists_fin
  obtain ⟨b, n, f, rfl⟩ := hy.1.exists_fin
  exact (Fl.add_roundsTo a b m n e f).within h hxy

/-- Negation keeps the bound. -/
theorem Fl.Within.neg (hx : x.Within j) : x.neg.Within j := by
  rwa [Fl.Within, Fl.isBinary64_neg, Fl.toRat_neg, abs_neg]

/-- The difference of bounded numbers. -/
theorem Fl.Within.sub (hx : x.Within j) (hy : y.Within k) (h : max j k + 1 ≤ 1000) : (x.sub y).Within (max j k + 1) :=
  hx.add hy.neg h

/-- The product of bounded numbers. -/
theorem Fl.Within.mul (hx : x.Within j) (hy : y.Within k) (h : j + k ≤ 1000) : (x.mul y).Within (j + k) := by
  have hxy : |x.toRat * y.toRat| ≤ 2 ^ (j + k) := by
    rw [abs_mul, pow_add]
    exact mul_le_mul hx.2 hy.2 (abs_nonneg _) (by positivity)
  obtain ⟨a, m, e, rfl⟩ := hx.1.exists_fin
  obtain ⟨b, n, f, rfl⟩ := hy.1.exists_fin
  exact (Fl.mul_roundsTo a b m n e f).within h hxy

/-- The quotient of a bounded number by a number that is at least 1. -/
theorem Fl.Within.div (hx : x.Within j) (hy : y.IsBinary64) (h1 : 1 ≤ y.toRat) (h : j ≤ 1000) : (x.div y).Within j := by
  have hxy : |x.toRat / y.toRat| ≤ 2 ^ j := by
    rw [abs_div, abs_of_pos (by linarith : 0 < y.toRat)]
    exact (div_le_self (abs_nonneg _) h1).trans hx.2
  obtain ⟨a, m, e, rfl⟩ := hx.1.exists_fin
  obtain ⟨b, n, f, rfl⟩ := hy.exists_fin
  have hn : n ≠ 0 := by
    rintro rfl
    rw [Fl.toRat_zero] at h1
    norm_num at h1
  exact (Fl.div_roundsTo a b m n e f hn).within h hxy

/-- The quotient of a bounded number by a positive integer constant. -/
theorem Fl.Within.div_ofInt (hx : x.Within j) {c : Int} (h1 : 1 ≤ c) (hc : c.natAbs < 2 ^ 53) (h : j ≤ 1000) :
    (x.div (Fl.ofInt c)).Within j :=
  hx.div (Fl.ofInt_exact hc).1 (by rw [(Fl.ofInt_exact hc).2]; exact_mod_cast h1) h

end

/-- A converted integer of at most `k` bits. -/
theorem Fl.within_ofInt {c : Int} {k : Nat} (h : c.natAbs < 2 ^ k) (hk : k ≤ 53) : (Fl.ofInt c).Within k := by
  obtain ⟨hb, hv⟩ := Fl.ofInt_exact (h.trans_le (Nat.pow_le_pow_right two_pos hk))
  refine ⟨hb, ?_⟩
  rw [hv, ← Int.cast_abs, Int.abs_eq_natAbs]
  exact_mod_cast h.le

/-- A converted unsigned field. -/
theorem Fl.within_ofInt_toNat {n : Nat} (v : BitVec n) (h : n ≤ 53) : (Fl.ofInt v.toNat).Within n :=
  Fl.within_ofInt (by rw [Int.natAbs_natCast]; exact v.isLt) h

/-- A coefficient of at most 16 bits. -/
theorem InRange.coeff_within {lo hi : Int} {w : Word} (h : InRange lo hi w) (hlo : -65535 ≤ lo) (hhi : hi ≤ 65535) :
    (coeff w).Within 16 := by
  obtain ⟨h1, h2⟩ := h
  exact Fl.within_ofInt (by omega) (by norm_num)

/-! ### The compensation -/

/-- The coefficients of the temperature and humidity formulas have at most 16 bits (10_state.md R32). -/
theorem CalRange.coeff_within {p : NarrowSext} {c : CalibrationSet} (h : CalRange p c) :
    ((coeff c.temp.t1).Within 16 ∧ (coeff c.temp.t2).Within 16 ∧ (coeff c.temp.t3).Within 16) ∧
    (coeff c.hum.h1).Within 16 ∧ (coeff c.hum.h2).Within 16 ∧ (coeff c.hum.h3).Within 16 ∧
    (coeff c.hum.h4).Within 16 ∧ (coeff c.hum.h5).Within 16 ∧ (coeff c.hum.h6).Within 16 := by
  obtain ⟨t1, t2, t3, -, -, h1, h2, h3, hn⟩ := h
  have hnarrow : (coeff c.hum.h4).Within 16 ∧ (coeff c.hum.h5).Within 16 ∧ (coeff c.hum.h6).Within 16 := by
    cases p <;> obtain ⟨h4, h5, h6⟩ := hn <;>
      exact ⟨h4.coeff_within (by norm_num) (by norm_num), h5.coeff_within (by norm_num) (by norm_num),
        h6.coeff_within (by norm_num) (by norm_num)⟩
  exact ⟨⟨t1.coeff_within (by norm_num) (by norm_num), t2.coeff_within (by norm_num) (by norm_num),
    t3.coeff_within (by norm_num) (by norm_num)⟩, h1.coeff_within (by norm_num) (by norm_num),
    h2.coeff_within (by norm_num) (by norm_num), h3.coeff_within (by norm_num) (by norm_num), hnarrow⟩

/-- `fine` is bounded (41_compensation.md R174). -/
theorem fineTemp_within {adcT : BitVec 20} {c : TempCoeffs} (h1 : (coeff c.t1).Within 16) (h2 : (coeff c.t2).Within 16)
    (h3 : (coeff c.t3).Within 16) : (fineTemp adcT c).Within 59 := by
  have hadc := Fl.within_ofInt_toNat adcT (by norm_num)
  have diff {a b : Int} (ha : 1 ≤ a) (ha' : a.natAbs < 2 ^ 53) (hb : 1 ≤ b) (hb' : b.natAbs < 2 ^ 53) :
      (((Fl.ofInt adcT.toNat).div (Fl.ofInt a)).sub ((coeff c.t1).div (Fl.ofInt b))).Within 21 :=
    (hadc.div_ofInt ha ha' (by norm_num)).sub (h1.div_ofInt hb hb' (by norm_num)) (by norm_num)
  have hv1 := (diff (a := 16384) (b := 1024) (by norm_num) (by norm_num) (by norm_num) (by norm_num)).mul h2 (by norm_num)
  have hb := diff (a := 131072) (b := 8192) (by norm_num) (by norm_num) (by norm_num) (by norm_num)
  have hv2 := (hb.mul hb (by norm_num)).mul h3 (by norm_num)
  exact hv1.add hv2 (by norm_num)

/-- The unclamped humidity is bounded, so finite (41_compensation.md R180). -/
theorem humRaw_within {adcH : BitVec 16} {h : Fl} {c : HumCoeffs} (hh : h.Within 60) (h1 : (coeff c.h1).Within 16)
    (h2 : (coeff c.h2).Within 16) (h3 : (coeff c.h3).Within 16) (h4 : (coeff c.h4).Within 16) (h5 : (coeff c.h5).Within 16)
    (h6 : (coeff c.h6).Within 16) : (humRaw adcH h c).Within 1000 := by
  have hone : (Fl.ofInt 1).Within 1 := Fl.within_ofInt (by norm_num) (by norm_num)
  have scaled {w : Fl} {d : Int} (hw : w.Within 16) (hd : 1 ≤ d) (hd' : d.natAbs < 2 ^ 53) :
      ((w.div (Fl.ofInt d)).mul h).Within 76 := (hw.div_ofInt hd hd' (by norm_num)).mul hh (by norm_num)
  have h64 : (Fl.ofInt 64).Within 7 := Fl.within_ofInt (by norm_num) (by norm_num)
  have hx := (h4.mul h64 (by norm_num)).add (scaled h5 (d := 16384) (by norm_num) (by norm_num)) (by norm_num)
  have hg3 := hone.add (scaled h3 (d := 67108864) (by norm_num) (by norm_num)) (by norm_num)
  have hg6 := (scaled h6 (d := 67108864) (by norm_num) (by norm_num)).mul hg3 (by norm_num)
  have hy := (h2.div_ofInt (c := 65536) (by norm_num) (by norm_num) (by norm_num)).mul (hone.add hg6 (by norm_num))
    (by norm_num)
  have hprod := ((Fl.within_ofInt_toNat adcH (by norm_num)).sub hx (by norm_num)).mul hy (by norm_num)
  have hcorr := (h1.mul hprod (by norm_num)).div_ofInt (c := 524288) (by norm_num) (by norm_num) (by norm_num)
  exact (hprod.mul (hone.sub hcorr (by norm_num)) (by norm_num)).mono (by norm_num)

/-- A humidity as 10_state.md R38 asks it of the default COMP: a finite number from 0 to 100. -/
def HumFinite (w : Word) : Prop :=
  (Fl.ofBits w).IsBinary64 ∧ 0 ≤ (Fl.ofBits w).toRat ∧ (Fl.ofBits w).toRat ≤ 100

/-- The pattern 0 is such a humidity. -/
theorem humFinite_zero : HumFinite 0 := by
  rw [HumFinite, Fl.ofBits_zero, Fl.toRat_zero]
  exact ⟨Fl.isBinary64_zero false, le_rfl, by norm_num⟩

/-- The pattern of a number is such a humidity where the number is. -/
theorem humFinite_toBits {x : Fl} (hx : x.IsBinary64) (h0 : 0 ≤ x.toRat) (h100 : x.toRat ≤ 100) : HumFinite x.toBits := by
  rw [HumFinite, Fl.ofBits_toBits hx]
  exact ⟨hx, h0, h100⟩

/-- The comparison of two binary64 numbers is that of their values. -/
theorem Fl.IsBinary64.lt_eq_false_iff {x y : Fl} (hx : x.IsBinary64) (hy : y.IsBinary64) :
    x.lt y = false ↔ y.toRat ≤ x.toRat := by
  obtain ⟨a, m, e, rfl⟩ := hx.exists_fin
  obtain ⟨b, n, f, rfl⟩ := hy.exists_fin
  rw [← not_lt, ← Fl.lt_iff_toRat_lt, Bool.not_eq_true]

/-- A finite humidity from 0 to 100 is neither above 100.0 nor below 0.0. -/
theorem humFinite_iff {w : Word} (hw : (Fl.ofBits w).IsBinary64) : HumFinite w ↔ HumInRange w := by
  obtain ⟨hb100, hv100⟩ := Fl.ofInt_exact (k := 100) (by norm_num)
  obtain ⟨hb0, hv0⟩ := Fl.ofInt_exact (k := 0) (by norm_num)
  rw [HumFinite, HumInRange, hb100.lt_eq_false_iff hw, hw.lt_eq_false_iff hb0, hv100, hv0, Int.cast_zero, Int.cast_ofNat]
  exact ⟨fun ⟨_, h0, h100⟩ => ⟨h100, h0⟩, fun ⟨h100, h0⟩ => ⟨hw, h0, h100⟩⟩

/-- The clamp brings a finite number into [0, 100] (41_compensation.md R179). -/
theorem humClamp_finite {x : Fl} (hx : x.IsBinary64) : HumFinite (humClamp x).1 := by
  obtain ⟨hb100, hv100⟩ := Fl.ofInt_exact (k := 100) (by norm_num)
  unfold humClamp
  split
  · exact humFinite_toBits hb100 (by rw [hv100]; norm_num) (by rw [hv100]; norm_num)
  split
  · exact humFinite_zero
  · rw [humFinite_iff (by rwa [Fl.ofBits_toBits hx]), HumInRange, Fl.ofBits_toBits hx]
    exact ⟨Bool.eq_false_iff.2 ‹_›, Bool.eq_false_iff.2 ‹_›⟩

/-- With coefficients in their ranges the default temperature function gives finite numbers (41_compensation.md R174). -/
theorem compT_finite {p : NarrowSext} {c : CalibrationSet} (h : CalRange p c) (adcT : BitVec 20) :
    (Fl.ofBits (compT adcT c.temp).1).Within 59 ∧ (Fl.ofBits (compT adcT c.temp).2).IsBinary64 := by
  obtain ⟨⟨ht1, ht2, ht3⟩, -⟩ := h.coeff_within
  have hfine := fineTemp_within (adcT := adcT) ht1 ht2 ht3
  have htemp := hfine.div_ofInt (c := 5120) (by norm_num) (by norm_num) (by norm_num)
  simp only [compT, Fl.ofBits_toBits hfine.1, Fl.ofBits_toBits htemp.1]
  exact ⟨hfine, htemp.1⟩

/-- And the default humidity function a finite humidity from 0 to 100 (41_compensation.md R180). -/
theorem compH_finite {p : NarrowSext} {c : CalibrationSet} (h : CalRange p c) {fine : Word}
    (hfine : (Fl.ofBits fine).Within 59) (adcH : BitVec 16) : HumFinite (compH adcH fine c.hum).1 := by
  obtain ⟨-, h1, h2, h3, h4, h5, h6⟩ := h.coeff_within
  have hoff : (humOffset fine).Within 60 :=
    hfine.sub (Fl.within_ofInt (k := 17) (by norm_num) (by norm_num)) (by norm_num)
  simp only [compH]
  split
  · exact humFinite_zero
  · exact humClamp_finite (humRaw_within hoff h1 h2 h3 h4 h5 h6).1

/-- Settles O54: no operation overflows, so no NaN arises, and the clamp gives the range. -/
theorem compensatedSampleIsFinite : Obligations.CompensatedSampleIsFinite := by
  unfold Obligations.CompensatedSampleIsFinite
  intro p c adcT adcH h
  obtain ⟨hfine, htemp⟩ := compT_finite h adcT
  exact ⟨hfine.1, htemp, compH_finite h hfine adcH⟩

end Sys2Proof.Machine
end

section
/-! The register file as the host reads it (10_state.md R21 to R32, R42). -/

namespace Sys2Proof.Machine

/-- Two fields side by side as a number. -/
theorem append_toNat {m n : Nat} (x : BitVec m) (y : BitVec n) : (x ++ y).toNat = y.toNat + 2 ^ n * x.toNat := by
  rw [BitVec.toNat_append, Nat.shiftLeft_eq, Nat.mul_comm, ← Nat.two_pow_add_eq_or_of_lt y.isLt, Nat.add_comm]

/-- CONFIG holds the climate address low and the gas address next (10_state.md R25). -/
theorem BusConfig.word_toNat (c : BusConfig) : c.word.toNat = c.climateAddr.toNat + 256 * c.gasAddr.toNat := by
  simp only [BusConfig.word, append_toNat, BitVec.ofNat_eq_ofNat, BitVec.toNat_zero]
  omega

/-- RAW_SAMPLE holds the pressure, temperature and humidity readings from bit 0 up (10_state.md R30). -/
theorem RawSample.word_toNat (r : RawSample) :
    r.word.toNat = r.adcP.toNat + 2 ^ 20 * r.adcT.toNat + 2 ^ 40 * r.adcH.toNat := by
  simp only [RawSample.word, append_toNat, BitVec.ofNat_eq_ofNat, BitVec.toNat_zero]
  omega

/-- Settles O14: each index picks its entry of the register list; the packed entries are read as numbers. -/
theorem registerMapHoldsUnitRegisters : Obligations.RegisterMapHoldsUnitRegisters := by
  unfold Obligations.RegisterMapHoldsUnitRegisters
  intro s
  have henv : (readReg 0x0E s).toNat = s.gas.humWord.toNat + 65536 * s.gas.tempWord.toNat := by
    change ((0 : BitVec 32) ++ s.gas.tempWord ++ s.gas.humWord).toNat = _
    simp only [append_toNat, BitVec.ofNat_eq_ofNat, BitVec.toNat_zero]
    omega
  have hwide {n : Nat} (h : n ≤ 64) (v : BitVec n) : (v.zeroExtend 64).toNat = v.toNat := BitVec.toNat_setWidth_of_le h
  exact ⟨rfl, rfl, hwide (n := 11) (by norm_num) _, s.config.word_toNat, rfl, rfl, rfl, rfl, rfl, rfl,
    hwide (n := 16) (by norm_num) _, hwide (n := 16) (by norm_num) _, henv, s.climate.raw.word_toNat, rfl,
    rfl, rfl, rfl, rfl, rfl, rfl, rfl, rfl, rfl, rfl, rfl, rfl, rfl, rfl, rfl, rfl, rfl, rfl⟩

/-- BUSY says whether the phase is RUN (10_state.md R40). -/
theorem State.busy_eq (s : State) : s.busy = decide (s.seq.phase = .run) := rfl

/-- A bit of the low field. -/
theorem getLsbD_append_of_lt {m n k : Nat} (x : BitVec m) (y : BitVec n) (h : k < n) :
    (x ++ y).getLsbD k = y.getLsbD k := by
  rw [BitVec.getLsbD_append, if_pos h]

/-- A bit of the high field. -/
theorem getLsbD_append_of_le {m n k : Nat} (x : BitVec m) (y : BitVec n) (h : n ≤ k) :
    (x ++ y).getLsbD k = x.getLsbD (k - n) := by
  rw [BitVec.getLsbD_append, if_neg h.not_gt]

/-- Settles O15: the fields of STATUS stand side by side, so each is the slice at its own bits; the two codes are then read off
their tables. -/
theorem statusShowsEachField : Obligations.StatusShowsEachField := by
  unfold Obligations.StatusShowsEachField
  intro s
  refine ⟨?_, ?_, ?_, ?err, ?_, ?gasState, ?_, ?_, ?_, ?_, ?_, ?_, ?_, ?_⟩
  all_goals simp (disch := decide) only [State.status, getLsbD_append_of_lt, getLsbD_append_of_le,
    BitVec.extractLsb'_append_eq_of_le, BitVec.extractLsb'_append_eq_of_add_le]
  case err => cases s.err <;> rfl
  case gasState => cases s.gas.st <;> rfl
  all_goals simp [State.busy_eq]

/-- Settles O16: the register list of the reset state, and the sequencer in IDLE with no turn pending. -/
theorem resetHoldsSpecValues : Obligations.ResetHoldsSpecValues := by
  unfold Obligations.ResetHoldsSpecValues
  exact ⟨by decide, rfl, rfl⟩

end Sys2Proof.Machine
end

section
/-! What one step does to EVENTS (10_state.md R24) and to calibration (10_state.md R39). -/

namespace Sys2Proof.Machine

/-! ### EVENTS -/

/-- The events of a sample do not contain OVERRUN (60_exceptions.md R306). -/
theorem climSampleEffects_overrun (C : Comp) (s : State) : (climSampleEffects C s).events.getLsbD 10 = false := by
  have hpress (p : Option (Option Word)) : (pressureEvent p).getLsbD 10 = false := by
    match p with
    | none => decide
    | some none => decide
    | some (some _) => exact BitVec.getLsbD_zero
  have hhum (h : HumEvent) : h.bit.getLsbD 10 = false := by
    cases h <;> decide
  rw [climSampleEffects, BitVec.getLsbD_or, hpress, hhum, Bool.or_false]

/-- Nor do the events of an update. -/
theorem updateEffects_overrun (s : State) : (updateEffects s).events.getLsbD 10 = false := by
  have hreject (c : Bool) {e : BitVec 11} (he : e.getLsbD 10 = false) : (if c then 0 else e).getLsbD 10 = false := by
    cases c
    · exact he
    · exact BitVec.getLsbD_zero
  unfold updateEffects
  split
  · rw [dataEffects, BitVec.getLsbD_or, hreject _ (by decide), hreject _ (by decide), Bool.or_false]
  · exact (by decide : evGasNoData.getLsbD 10 = false)

/-- No command raises OVERRUN (60_exceptions.md R306). -/
theorem effectsOf_overrun (i : Instr) (s : State) : (effectsOf i s).events.getLsbD 10 = false := by
  cases i
  case climSample => exact climSampleEffects_overrun _ s
  case gasUpdate => exact updateEffects_overrun s
  case gasSample => exact updateEffects_overrun s
  all_goals exact BitVec.getLsbD_zero

/-- No error code raises OVERRUN (60_exceptions.md R300). -/
theorem ErrCode.event_overrun (e : ErrCode) : e.event.getLsbD 10 = false := by
  cases e <;> decide

/-- A completion: the command ends and events other than OVERRUN are set. -/
def Completes (s t : State) : Prop :=
  t.seq.phase = .idle ∧ t.done = true ∧ ∃ x : BitVec 11, x.getLsbD 10 = false ∧ t.events = s.events ||| x

/-- A completion with effects that do not raise OVERRUN. -/
theorem complete_completes {s : State} (e : ErrCode) {w : Effects} (h : w.events.getLsbD 10 = false) :
    Completes s (complete e w s) :=
  ⟨rfl, rfl, w.events ||| e.event, by rw [BitVec.getLsbD_or, h, e.event_overrun]; rfl, BitVec.or_assoc ..⟩

/-- An error. -/
theorem raiseErr_completes (e : ErrCode) (s : State) : Completes s (raiseErr e s) :=
  complete_completes e BitVec.getLsbD_zero

/-- A command's step keeps EVENTS or is its completion. -/
theorem exec_events_cases {i : Instr} {s t : State} (h : exec i s = .next t) : t.events = s.events ∨ Completes s t := by
  rcases exec_cases i s with ⟨-, e⟩ | ⟨-, -, e⟩ | ⟨x, -, -, -, e⟩ | ⟨x, b, -, -, -, -, e⟩ <;> rw [h] at e <;> cases e
  · exact .inr (raiseErr_completes _ s)
  · exact .inr (complete_completes .ok (effectsOf_overrun i s))
  · exact .inr (raiseErr_completes .transport (s.logBus x (some .fail)))
  · exact .inl rfl

/-- Everything one step can do to EVENTS. -/
theorem step_events_cases {s t : State} (h : step s = .next t) :
    t.events = s.events ∨
    (s.seq.phase = .run ∧ Completes s t) ∨
    (∃ w rest, s.env.turns = .wr 0x00 w :: rest ∧ s.seq.phase = .run ∧ t.events = s.events ||| evOverrun) ∨
    (∃ v rest, s.env.turns = .wr 0x02 v :: rest ∧ t.events = s.events &&& ~~~(v.extractLsb' 0 11)) ∨
    (s.resetNext = true ∧ t.events = 0) := by
  rcases step_cases s with ⟨u, hv, hp, e⟩ | ⟨u, i, hv, hp, hd, e⟩ | ⟨u, r, hv, hp, hd, e⟩ | ⟨i, rest, ht, e⟩ |
    ⟨i, v, rest, ht, e⟩ | ⟨f, rest, ht, e⟩ | ⟨rest, ht, hp, e⟩ <;> rw [h] at e
  · cases e
    rw [State.sequencerView_eq hv]
    exact .inl rfl
  · have hu := State.sequencerView_eq hv
    have hev : u.events = s.events := by rw [hu]
    rw [show u.seq = s.seq by rw [hu]] at hp
    refine (exec_events_cases e.symm).imp (fun hs => hs.trans hev) fun hc => .inl ⟨hp, ?_⟩
    rwa [Completes, ← hev]
  · cases e
    have hu := State.sequencerView_eq hv
    rw [show u.seq = s.seq by rw [hu]] at hp
    refine .inr (.inl ⟨hp, ?_⟩)
    rw [Completes, show s.events = u.events by rw [hu]]
    exact raiseErr_completes .illegal u
  · cases e
    exact .inl rfl
  · cases e
    rcases hostWrite_cases i v s.nextTurn with ⟨_, _, e⟩ | ⟨rfl, hp, e⟩ | ⟨rfl, e⟩ | ⟨_, e⟩ | ⟨_, e⟩ | ⟨_, e⟩ | ⟨_, e⟩ <;>
      rw [e]
    · exact .inl rfl
    · exact .inr (.inr (.inl ⟨v, rest, ht, hp, rfl⟩))
    · exact .inr (.inr (.inr (.inl ⟨v, rest, ht, rfl⟩)))
    all_goals exact .inl rfl
  · cases e
    refine .inr (.inr (.inr (.inr ⟨by rw [State.resetNext, ht], ?_⟩)))
    rcases resetInput_cases f s.nextTurn with ⟨x, -, -, e⟩ | ⟨-, e⟩ <;> rw [e] <;> rfl
  · cases e
    exact .inl rfl

/-- Settles O27: in each of the ways a step can change EVENTS, the bits that fall and the bits that rise. -/
theorem eventBitsFallOnlyByHostOrReset : Obligations.EventBitsFallOnlyByHostOrReset := by
  unfold Obligations.EventBitsFallOnlyByHostOrReset
  intro s t k h hk
  rcases step_events_cases h with e | ⟨hp, hidle, hdone, x, hx, e⟩ | ⟨w, rest, ht, hp, e⟩ | ⟨v, rest, ht, e⟩ | ⟨hr, e⟩ <;>
    rw [e]
  · refine ⟨fun h1 h0 => ?_, fun h0 h1 => ?_, fun _ h0 h1 => ?_⟩ <;> exact absurd (h1.symm.trans h0) (by decide)
  · refine ⟨fun h1 h0 => ?_, fun h0 h1 => ?_, fun _ _ _ => ⟨hp, hidle, hdone⟩⟩
    · simp [h1] at h0
    · rw [BitVec.getLsbD_or, h0, hx] at h1
      exact absurd h1 (by decide)
  · refine ⟨fun h1 h0 => ?_, fun _ _ => ⟨w, rest, ht, hp⟩, fun hk' h0 h1 => ?_⟩
    · simp [h1] at h0
    · have hbit : evOverrun.getLsbD k = false := by
        have : ∀ j < 10, evOverrun.getLsbD j = false := by decide
        exact this k hk'
      rw [BitVec.getLsbD_or, h0, hbit] at h1
      exact absurd h1 (by decide)
  · refine ⟨fun h1 h0 => .inl ⟨v, rest, ht, ?_⟩, fun h0 h1 => ?_, fun _ h0 h1 => ?_⟩
    · simpa [h1, hk] using h0
    · rw [BitVec.getLsbD_and, h0, Bool.false_and] at h1
      exact absurd h1 (by decide)
    · rw [BitVec.getLsbD_and, h0, Bool.false_and] at h1
      exact absurd h1 (by decide)
  · exact ⟨fun _ _ => .inr hr, fun _ h1 => by simp at h1, fun _ _ h1 => by simp at h1⟩

/-! ### Calibration -/

/-- An update leaves the climate unit alone (43_gas_commands.md R257). -/
theorem updateEffects_climate (s : State) : (updateEffects s).climate = s.climate := by
  unfold updateEffects
  split <;> rfl

/-- Only CLIM.INIT writes the calibration (10_state.md R39). -/
theorem effectsOf_cal {i : Instr} (h : i ≠ .climInit) (s : State) :
    (effectsOf i s).climate.cal = s.climate.cal ∧ (effectsOf i s).climate.calValid = s.climate.calValid := by
  cases i
  case climInit => exact absurd rfl h
  case gasUpdate => exact ⟨congrArg _ (updateEffects_climate s), congrArg _ (updateEffects_climate s)⟩
  case gasSample => exact ⟨congrArg _ (updateEffects_climate s), congrArg _ (updateEffects_climate s)⟩
  all_goals exact ⟨rfl, rfl⟩

/-- Settles O30: a step other than the reset input keeps the units or is a completion with ERR = OK, and of these only
CLIM.INIT's writes the calibration. -/
theorem calibrationChangesOnlyByClimInit : Obligations.CalibrationChangesOnlyByClimInit := by
  unfold Obligations.CalibrationChangesOnlyByClimInit
  intro s t h hr
  have hnoreset : ∀ f rest, s.env.turns ≠ .reset f :: rest := by
    intro f rest ht
    rw [State.resetNext, ht] at hr
    cases hr
  rcases step_commit_cases h hnoreset with ⟨hc, -⟩ | ⟨i, u, hv, hp, hd, -, -, rfl⟩
  · exact .inl (by rw [hc]; exact ⟨rfl, rfl⟩)
  · by_cases hi : i = .climInit
    · subst hi
      exact .inr ⟨hp, hd, rfl, rfl, rfl, rfl⟩
    · left
      rw [complete_climate, show s.climate = u.climate by rw [State.sequencerView_eq hv]]
      exact effectsOf_cal hi u

end Sys2Proof.Machine
end

section
/-! The invariant of the machine (10_state.md R32 to R40, 20_memory.md R63, R66), by its parts: what is said of a running command, of
each unit's registers and of the bus log. Each shared operation keeps it, so every step does. -/

namespace Sys2Proof.Machine

/-! ### Its parts -/

/-- What the invariant says of a running command. -/
def State.RunInv (s : State) : Prop :=
  s.seq.phase = .run → (s.seq.cmd = s.cmd ∧ s.done = false) ∧ StagedOk s

/-- What it says of the climate unit under the run's parameters. -/
structure ClimateInv (p : Params) (u : ClimateUnit) : Prop where
  calRange : CalRange p.narrowSext u.cal
  uncalibrated : u.calValid = false → u = ClimateUnit.reset
  valids : (u.pValid = true → u.thValid = true) ∧ (u.thValid = true → u.calValid = true)
  unsampled : u.thValid = false → u.tempC = 0 ∧ u.humPct = 0 ∧ u.fine = 0 ∧ u.raw = { adcP := 0, adcT := 0, adcH := 0 }
  noPressure : u.pValid = false → u.pressHpa = 0
  humRange : p.comp = .default ∨ p.comp.functions.Clamps → HumInRange u.humPct
  finite : p.comp = .default →
    (Fl.ofBits u.fine).IsBinary64 ∧ (Fl.ofBits u.tempC).IsBinary64 ∧ HumFinite u.humPct

/-- What it says of a gas reading: in its range, both bounds exclusive, when valid, and 0 else. -/
def ReadingInv (lo hi : Nat) (valid : Bool) (v : BitVec 16) : Prop :=
  if valid then lo < v.toNat ∧ v.toNat < hi else v = 0

/-- What it says of the gas unit. -/
structure GasInv (g : GasUnit) : Prop where
  uninit : g.st = .uninit → g = GasUnit.reset
  drive : g.st ≠ .uninit → g.drive = 0b001
  eco2 : ReadingInv 400 8192 g.eco2Valid g.eco2
  tvoc : ReadingInv 0 1187 g.tvocValid g.tvoc

/-- What it says of the port (20_memory.md R63, R66). -/
def Environment.PortInv (v : Environment) : Prop := ∀ r ∈ v.busLog, r.Conforms

/-- The invariant is its parts. -/
theorem State.inv_iff (s : State) :
    s.Inv ↔ s.RunInv ∧ ClimateInv s.params s.climate ∧ GasInv s.gas ∧ s.env.PortInv := by
  constructor
  · intro h
    exact ⟨fun hr => ⟨h.latched hr, h.staged hr⟩,
      ⟨h.calRange, h.uncalibrated, h.valids, h.unsampled, h.noPressure, h.humRange, h.finite⟩,
      ⟨h.gasUninit, h.drive, h.eco2, h.tvoc⟩, h.port⟩
  · rintro ⟨hrun, hc, hg, hport⟩
    exact ⟨fun hr => (hrun hr).1, fun hr => (hrun hr).2, hc.calRange, hc.uncalibrated, hc.valids, hc.unsampled,
      hc.noPressure, hc.humRange, hc.finite, hg.uninit, hg.drive, hg.eco2, hg.tvoc, hport⟩

/-! ### The climate unit -/

/-- A zero-extended field lies in the range of its width. -/
theorem zext_inRange {n : Nat} (v : BitVec n) {hi : Int} (hn : n < 64) (hhi : 2 ^ n ≤ hi + 1) : InRange 0 hi (zext v) := by
  have hlt : (v.toNat : Int) < 2 ^ n := by exact_mod_cast v.isLt
  rw [InRange, zext_toInt hn]
  omega

/-- A sign-extended field lies in the range of its width. -/
theorem sext_inRange {n : Nat} (v : BitVec (n + 1)) {lo hi : Int} (hn : n < 64) (hlo : lo ≤ -2 ^ n) (hhi : 2 ^ n ≤ hi + 1) :
    InRange lo hi (sext v) := by
  have hle := v.le_toInt
  have hlt := v.toInt_lt
  rw [Nat.add_sub_cancel] at hle hlt
  rw [InRange, sext_toInt hn]
  omega

/-- The unpacker gives coefficients in their ranges, whatever the bytes (10_state.md R32, 40_datapath.md R132, R133). -/
theorem calRange_unpackCal (p : NarrowSext) (b : List Byte) : CalRange p (unpackCal p b) := by
  have hword (v : BitVec 16) : InRange (-32768) 32767 (sext v) := sext_inRange v (by norm_num) (by norm_num) (by norm_num)
  have huword (v : BitVec 16) : InRange 0 65535 (zext v) := zext_inRange v (by norm_num) (by norm_num)
  have hubyte (v : Byte) : InRange 0 255 (zext v) := zext_inRange v (by norm_num) (by norm_num)
  have hpress : ∀ w ∈ [sext (le16 b 8), sext (le16 b 10), sext (le16 b 12), sext (le16 b 14), sext (le16 b 16),
      sext (le16 b 18), sext (le16 b 20), sext (le16 b 22)], InRange (-32768) 32767 w := by
    simp [hword]
  refine ⟨huword _, hword _, hword _, huword _, hpress, hubyte _, hword _, hubyte _, ?_⟩
  cases p with
  | fieldWidth =>
    exact ⟨sext_inRange (n := 11) _ (by norm_num) (by norm_num) (by norm_num),
      sext_inRange (n := 11) _ (by norm_num) (by norm_num) (by norm_num),
      sext_inRange (n := 7) _ (by norm_num) (by norm_num) (by norm_num)⟩
  | rule16 =>
    exact ⟨zext_inRange (n := 12) _ (by norm_num) (by norm_num), zext_inRange (n := 12) _ (by norm_num) (by norm_num),
      hubyte _⟩

/-- With its outputs cleared the climate unit meets the invariant: after CLIM.INIT (10_state.md R27) and at reset. -/
theorem climateInv_cleared {p : Params} {c : CalibrationSet} {v : Bool} (hc : CalRange p.narrowSext c)
    (hv : v = false → c = ClimateUnit.reset.cal) : ClimateInv p { ClimateUnit.reset with cal := c, calValid := v } where
  calRange := hc
  uncalibrated := by
    rintro rfl
    rw [hv rfl]
    rfl
  valids := ⟨nofun, nofun⟩
  unsampled := fun _ => ⟨rfl, rfl, rfl, rfl⟩
  noPressure := fun _ => rfl
  humRange := fun _ => (humFinite_iff humFinite_zero.1).1 humFinite_zero
  finite := fun _ => ⟨humFinite_zero.1, humFinite_zero.1, humFinite_zero⟩

/-- The climate unit at reset. -/
theorem climateInv_reset (p : Params) : ClimateInv p ClimateUnit.reset := by
  have hzero : CalRange p.narrowSext ClimateUnit.reset.cal := by
    unfold CalRange InRange
    cases p.narrowSext <;> simp [ClimateUnit.reset]
  exact climateInv_cleared hzero fun _ => rfl

/-- A sample of a calibrated unit keeps its invariant (42_climate_commands.md R209). -/
theorem climSampleEffects_climateInv {s : State} (h : ClimateInv s.params s.climate) (hv : s.climate.calValid = true) :
    ClimateInv s.params (climSampleEffects s.params.comp.functions s).climate := by
  have hdefault (hd : s.params.comp = .default) :
      (Fl.ofBits (climSampleEffects s.params.comp.functions s).climate.fine).IsBinary64 ∧
      (Fl.ofBits (climSampleEffects s.params.comp.functions s).climate.tempC).IsBinary64 ∧
      HumFinite (climSampleEffects s.params.comp.functions s).climate.humPct := by
    rw [hd]
    obtain ⟨hfine, htemp⟩ := compT_finite h.calRange (unpackRaw s.seq.buf).adcT
    exact ⟨hfine.1, htemp, compH_finite h.calRange hfine _⟩
  refine ⟨h.calRange, fun hc => absurd (hv.symm.trans hc) (by decide), ⟨fun _ => rfl, fun _ => hv⟩, nofun, ?_, ?_, hdefault⟩
  · simp only [climSampleEffects]
    split
    · exact h.noPressure
    · exact nofun
  · rintro (hd | hclamps)
    · obtain ⟨-, -, hhum⟩ := hdefault hd
      exact (humFinite_iff hhum.1).1 hhum
    · exact hclamps _ _ _

/-! ### The gas unit -/

/-- A reading judged by its range keeps the invariant (43_gas_commands.md R248). -/
theorem ReadingInv.judge {lo hi : Nat} {ok valid : Bool} {v new : BitVec 16} (h : ReadingInv lo hi valid v)
    (hok : ok = true → lo < new.toNat ∧ new.toNat < hi) :
    ReadingInv lo hi (if ok then true else valid) (if ok then new else v) := by
  cases ok with
  | false => exact h
  | true => exact hok rfl

/-- The gas unit at reset. -/
theorem gasInv_reset : GasInv GasUnit.reset := ⟨fun _ => rfl, fun h => absurd rfl h, rfl, rfl⟩

/-- The commit of GAS.INIT (43_gas_commands.md R232). -/
theorem gasInv_booted : GasInv { GasUnit.reset with st := .booted, drive := fixedDriveMode.code } :=
  ⟨nofun, fun _ => rfl, rfl, rfl⟩

/-- An initialised unit that stays initialised and keeps its drive code meets the invariant where its readings do. -/
theorem GasInv.of_initialised {g g' : GasUnit} (h : GasInv g) (hst : g.st ≠ .uninit) (hst' : g'.st ≠ .uninit)
    (hdrive : g'.drive = g.drive) (heco2 : ReadingInv 400 8192 g'.eco2Valid g'.eco2)
    (htvoc : ReadingInv 0 1187 g'.tvocValid g'.tvoc) : GasInv g' :=
  ⟨fun hu => absurd hu hst', fun _ => hdrive.trans (h.drive hst), heco2, htvoc⟩

/-- The commit of GAS.COMP (43_gas_commands.md R243). -/
theorem compEffects_gasInv {s : State} (h : GasInv s.gas) (hst : s.gas.st ≠ .uninit) (src : EnvSource) :
    GasInv (compEffects src s).gas := by
  simp only [compEffects]
  split
  · exact h.of_initialised hst hst rfl h.eco2 h.tvoc
  · exact h

/-- The commit of an update (43_gas_commands.md R246, R248). -/
theorem updateEffects_gasInv {s : State} (h : GasInv s.gas) (hst : s.gas.st ≠ .uninit) : GasInv (updateEffects s).gas := by
  unfold updateEffects
  split
  · exact h.of_initialised hst nofun rfl (h.eco2.judge (by simp [eco2OK])) (h.tvoc.judge (by simp [tvocOK]))
  · exact h.of_initialised hst nofun rfl h.eco2 h.tvoc

/-! ### Commits -/

/-- A gas command past its precheck finds the unit initialised (30_encoding.md R99). -/
theorem gasPrecheck_ok {s : State} (h : gasPrecheck s = .ok) : s.gas.st ≠ .uninit := by
  intro hu
  simp [gasPrecheck, hu] at h

/-- The same of GAS.COMP. -/
theorem compPrecheck_ok {src : EnvSource} {s : State} (h : compPrecheck src s = .ok) : s.gas.st ≠ .uninit := by
  intro hu
  simp [compPrecheck, hu] at h

/-- CLIM.SAMPLE past its precheck finds the unit calibrated. -/
theorem climSamplePrecheck_ok {s : State} (h : climSamplePrecheck s = .ok) : s.climate.calValid = true := by
  by_contra hc
  simp [climSamplePrecheck, hc] at h

/-- The commit of a command past its precheck keeps both units' invariants. -/
theorem effectsOf_inv {i : Instr} {s : State} (hp : precheckOf i s = .ok) (hc : ClimateInv s.params s.climate)
    (hg : GasInv s.gas) : ClimateInv s.params (effectsOf i s).climate ∧ GasInv (effectsOf i s).gas := by
  cases i with
  | nop => exact ⟨hc, hg⟩
  | climInit => exact ⟨climateInv_cleared (calRange_unpackCal _ _) nofun, hg⟩
  | climSample => exact ⟨climSampleEffects_climateInv hc (climSamplePrecheck_ok hp), hg⟩
  | gasInit => exact ⟨hc, gasInv_booted⟩
  | gasReady =>
    have hst := gasPrecheck_ok hp
    exact ⟨hc, hg.of_initialised hst hst rfl hg.eco2 hg.tvoc⟩
  | gasComp => exact ⟨hc, compEffects_gasInv hg (compPrecheck_ok hp) _⟩
  | gasCompOpnd => exact ⟨hc, compEffects_gasInv hg (compPrecheck_ok hp) _⟩
  | gasCompClim => exact ⟨hc, compEffects_gasInv hg (compPrecheck_ok hp) _⟩
  | gasUpdate => exact ⟨(updateEffects_climate s).symm ▸ hc, updateEffects_gasInv hg (gasPrecheck_ok hp)⟩
  | gasSample => exact ⟨(updateEffects_climate s).symm ▸ hc, updateEffects_gasInv hg (gasPrecheck_ok hp)⟩

/-! ### The staging buffer -/

/-- How many bytes the transactions of a command return, in order (30_encoding.md R100). -/
def replyLens : Instr → List Nat
  | .nop => []
  | .climInit => [0, 0, 0, 24, 1, 7]
  | .climSample => [8]
  | .gasInit => [0, 0]
  | .gasReady => [1]
  | .gasComp => [0]
  | .gasCompOpnd => [0]
  | .gasCompClim => [0]
  | .gasUpdate => [1, 8]
  | .gasSample => [1, 8]

/-- A command's schedule asks for these bytes, though it may end early (30_encoding.md R101). -/
theorem scheduleOf_replyLens (i : Instr) (s : State) : (scheduleOf i s).map Transaction.replyLen <+: replyLens i := by
  have hcomp (src : EnvSource) : (compSchedule src s).map Transaction.replyLen <+: [0] := by
    unfold compSchedule
    split
    · exact List.prefix_rfl
    · exact List.nil_prefix
  have hupdate : (updateSchedule s.gasAddr s.seq.buf).map Transaction.replyLen <+: [1, 8] := by
    unfold updateSchedule
    split
    · exact List.prefix_rfl
    · exact ⟨[8], rfl⟩
  cases i
  case gasComp => exact hcomp _
  case gasCompOpnd => exact hcomp _
  case gasCompClim => exact hcomp _
  case gasUpdate => exact hupdate
  case gasSample => exact hupdate
  all_goals exact List.prefix_rfl

/-- The staged bytes are the running sums of the replies. -/
theorem stagedBytes_eq_scanl (i : Instr) : stagedBytes i = (replyLens i).scanl (· + ·) 0 := by
  cases i <;> rfl

/-- One more transaction stages its reply's bytes. -/
theorem stagedBytes_succ {i : Instr} {s : State} {x : Transaction} {n : Nat} (hx : nextTxnOf i s = some x)
    (hn : (stagedBytes i)[s.seq.step]? = some n) : (stagedBytes i)[s.seq.step + 1]? = some (n + x.replyLen) := by
  have hlen : (replyLens i)[s.seq.step]? = some x.replyLen := by
    obtain ⟨rest, hrest⟩ := scheduleOf_replyLens i s
    have hmap : ((scheduleOf i s).map Transaction.replyLen)[s.seq.step]? = some x.replyLen := by
      rw [List.getElem?_map, show (scheduleOf i s)[s.seq.step]? = some x from hx]
      rfl
    rw [← hrest, List.getElem?_append_left (List.getElem?_eq_some_iff.1 hmap).1, hmap]
  rw [stagedBytes_eq_scanl] at hn ⊢
  rw [List.getElem?_succ_scanl, hn, hlen]
  rfl

/-- A precheck depends on the units, the parameters and the latched operands alone (30_encoding.md R95). -/
theorem precheckOf_congr {s t : State} (i : Instr) (hp : t.params = s.params) (hc : t.climate = s.climate)
    (hg : t.gas = s.gas) (hh : t.seq.envH = s.seq.envH) (ht : t.seq.envT = s.seq.envT) :
    precheckOf i t = precheckOf i s := by
  have hwords (src : EnvSource) : compWords src t = compWords src s := by
    cases src <;> simp only [compWords, envOperands, hp, hc, hh, ht]
  cases i <;> simp only [precheckOf, climSamplePrecheck, gasPrecheck, compPrecheck, hc, hg, hwords]

/-- The staging of a running legal word. -/
theorem stagedOk_iff {s : State} {i : Instr} (hd : decode s.seq.cmd = .ok i) :
    StagedOk s ↔
      (stagedBytes i)[s.seq.step]? = some s.seq.buf.length ∧ (0 < s.seq.step → precheckOf i s = .ok) ∧
      ((i = .gasUpdate ∨ i = .gasSample) → s.seq.step = 2 → dataReady (byteAt s.seq.buf 0) = true) := by
  rw [StagedOk, hd]

/-- The staging depends on the sequencer, the units and the parameters alone. -/
theorem StagedOk.congr {s t : State} (h : StagedOk s) (hs : t.seq = s.seq) (hp : t.params = s.params)
    (hc : t.climate = s.climate) (hg : t.gas = s.gas) : StagedOk t := by
  have hpre (i : Instr) : precheckOf i t = precheckOf i s := precheckOf_congr i hp hc hg (by rw [hs]) (by rw [hs])
  unfold StagedOk at h ⊢
  simpa only [hs, hpre] using h

/-- A command just issued has staged nothing (30_encoding.md R98). -/
theorem stagedOk_of_start {s : State} (hstep : s.seq.step = 0) (hbuf : s.seq.buf = []) : StagedOk s := by
  cases hd : decode s.seq.cmd with
  | error r =>
    rw [StagedOk, hd]
    exact ⟨hstep, hbuf⟩
  | ok i =>
    rw [stagedOk_iff hd, hstep, hbuf]
    exact ⟨by cases i <;> rfl, fun h => absurd h (lt_irrefl 0), fun _ h => absurd h (by decide)⟩

/-- The second transaction of an update is due only where the status byte says data ready (30_encoding.md R101). -/
theorem dataReady_of_second_transaction {ga : Byte} {buf : List Byte} {x : Transaction}
    (h : (updateSchedule ga buf)[1]? = some x) : dataReady (byteAt buf 0) = true := by
  by_contra hr
  simp [updateSchedule, hr] at h

/-- The same of the two updating commands. -/
theorem nextTxnOf_second_dataReady {i : Instr} {s : State} {x : Transaction} (hi : i = .gasUpdate ∨ i = .gasSample)
    (h1 : s.seq.step = 1) (hx : nextTxnOf i s = some x) : dataReady (byteAt s.seq.buf 0) = true := by
  rw [nextTxnOf, h1] at hx
  rcases hi with rfl | rfl <;> exact dataReady_of_second_transaction hx

/-- An OK response keeps the staging (30_encoding.md R98). -/
theorem StagedOk.transact {s t : State} {i : Instr} {x : Transaction} {b : List Byte} (h : StagedOk s)
    (hd : decode s.seq.cmd = .ok i) (hp : precheckOf i s = .ok) (hx : nextTxnOf i s = some x)
    (hb : b.length = x.replyLen) (hs : t.seq = { s.seq with buf := s.seq.buf ++ b, step := s.seq.step + 1 })
    (hpar : t.params = s.params) (hc : t.climate = s.climate) (hg : t.gas = s.gas) : StagedOk t := by
  obtain ⟨hlen, -, -⟩ := (stagedOk_iff hd).1 h
  have hpre : precheckOf i t = precheckOf i s := precheckOf_congr i hpar hc hg (by rw [hs]) (by rw [hs])
  rw [stagedOk_iff (i := i) (by rw [hs]; exact hd), hpre, hs]
  refine ⟨?_, fun _ => hp, fun hi h2 => ?_⟩
  · rw [List.length_append, hb]
    exact stagedBytes_succ hx hlen
  · have h1 : s.seq.step = 1 := by simpa using h2
    have hone : s.seq.buf.length = 1 := by
      rw [h1] at hlen
      rcases hi with rfl | rfl <;> exact (Option.some.inj hlen).symm
    have hfirst : byteAt (s.seq.buf ++ b) 0 = byteAt s.seq.buf 0 := List.getD_append _ _ _ _ (by omega)
    rw [hfirst]
    exact nextTxnOf_second_dataReady hi h1 hx

/-! ### The operations -/

section
variable {s t : State}

/-- The invariant depends on what its parts speak of. -/
theorem State.Inv.frame (h : s.Inv) (hrun : t.RunInv) (hport : t.env.PortInv) (hp : t.params = s.params)
    (hc : t.climate = s.climate) (hg : t.gas = s.gas) : t.Inv := by
  rw [State.inv_iff] at h ⊢
  obtain ⟨-, hclim, hgas, -⟩ := h
  rw [hp, hc, hg]
  exact ⟨hrun, hclim, hgas, hport⟩

/-- What is neither the running command's, a unit's, a parameter nor the bus log may change. -/
theorem State.Inv.congr (h : s.Inv) (hs : t.seq = s.seq) (hcmd : t.cmd = s.cmd) (hdone : t.done = s.done)
    (hp : t.params = s.params) (hc : t.climate = s.climate) (hg : t.gas = s.gas) (hb : t.env.busLog = s.env.busLog) :
    t.Inv := by
  refine h.frame (fun hr => ?_) (by rw [Environment.PortInv, hb]; exact h.port) hp hc hg
  rw [hs] at hr
  exact ⟨by rw [hs, hcmd, hdone]; exact h.latched hr, (h.staged hr).congr hs hp hc hg⟩

/-- One more record that conforms. -/
theorem portInv_logBus {x : Transaction} {r : Option BusResponse} (h : s.env.PortInv)
    (hx : BusRecord.Conforms { txn := x, resp := r }) : (s.logBus x r).env.PortInv := by
  intro a ha
  rw [State.logBus_env, List.mem_append, List.mem_singleton] at ha
  rcases ha with ha | rfl
  · exact h a ha
  · exact hx

/-- A transaction that a command issues, with a response of its own length or none that is OK, conforms. -/
theorem conforms_of_nextTxnOf {i : Instr} {x : Transaction} {r : Option BusResponse} (hx : nextTxnOf i s = some x)
    (hr : ∀ b, r = some (.ok b) → b.length = x.replyLen) : BusRecord.Conforms { txn := x, resp := r } := by
  refine ⟨fun dev reg n hn => ?_, hr⟩
  rw [show x = .rdBlock dev reg n from hn] at hx
  exact nextTxnOf_rdBlock hx

/-- A completion keeps the invariant where the units it writes do. -/
theorem complete_inv {w : Effects} (e : ErrCode) (hport : s.env.PortInv) (hc : ClimateInv s.params w.climate)
    (hg : GasInv w.gas) : (complete e w s).Inv :=
  (State.inv_iff _).2 ⟨nofun, hc, hg, hport⟩

/-- An error keeps it (60_exceptions.md R300). -/
theorem raiseErr_inv (e : ErrCode) (h : s.Inv) : (raiseErr e s).Inv :=
  h.frame nofun h.port rfl rfl rfl

/-- A step of a running command keeps it. -/
theorem exec_inv {i : Instr} (h : s.Inv) (hr : s.seq.phase = .run) (hd : decode s.seq.cmd = .ok i)
    (hs : exec i s = .next t) : t.Inv := by
  obtain ⟨-, hclim, hgas, hport⟩ := (State.inv_iff s).1 h
  rcases exec_cases i s with ⟨-, e⟩ | ⟨hp, -, e⟩ | ⟨x, -, hx, -, e⟩ | ⟨x, b, hp, hx, -, hb, e⟩ <;> rw [hs] at e <;> cases e
  · exact raiseErr_inv _ h
  · obtain ⟨hc, hg⟩ := effectsOf_inv hp hclim hgas
    exact complete_inv .ok hport hc hg
  · exact h.frame nofun (portInv_logBus hport (conforms_of_nextTxnOf hx nofun)) rfl rfl rfl
  · have hconf : BusRecord.Conforms { txn := x, resp := some (.ok b) } := by
      refine conforms_of_nextTxnOf hx fun b' hb' => ?_
      cases hb'
      exact hb
    exact h.frame (fun _ => ⟨h.latched hr, (h.staged hr).transact hd hp hx hb rfl rfl rfl rfl⟩) (portInv_logBus hport hconf)
      rfl rfl rfl

/-- A host write keeps it (44_host_access.md R272 to R278). -/
theorem hostWrite_inv (i : BitVec 6) (v : Word) (h : s.Inv) : (hostWrite i v s).Inv := by
  rcases hostWrite_cases i v s with ⟨_, _, e⟩ | ⟨_, _, e⟩ | ⟨_, e⟩ | ⟨_, e⟩ | ⟨_, e⟩ | ⟨_, e⟩ | ⟨_, e⟩ <;> rw [e]
  · exact h.frame (fun _ => ⟨⟨rfl, rfl⟩, stagedOk_of_start rfl rfl⟩) h.port rfl rfl rfl
  all_goals exact h.congr rfl rfl rfl rfl rfl rfl rfl

/-- The registers at reset meet it under any parameters (10_state.md R42). -/
theorem resetState_inv (h : s.env.PortInv) : (resetState s).Inv :=
  (State.inv_iff _).2 ⟨nofun, climateInv_reset _, gasInv_reset, h⟩

/-- The pending transaction is the running command's next one (20_memory.md R67). -/
theorem nextTxnOf_of_pendingTxn {x : Transaction} (h : pendingTxn s = some x) : ∃ i, nextTxnOf i s = some x := by
  unfold pendingTxn at h
  split at h
  · cases h
  split at h
  · split at h
    · exact ⟨_, h⟩
    · cases h
  · cases h

/-- The reset input meets it (70_reset_and_hazards.md R340, R343). -/
theorem resetInput_inv (f : Bool) (h : s.Inv) : (resetInput f s).Inv := by
  rcases resetInput_cases f s with ⟨x, -, hx, e⟩ | ⟨-, e⟩ <;> rw [e]
  · obtain ⟨i, hi⟩ := nextTxnOf_of_pendingTxn hx
    exact resetState_inv (portInv_logBus h.port (conforms_of_nextTxnOf hi nofun))
  · exact resetState_inv h.port

/-! ### Every step -/

/-- Every step answers a next state (60_exceptions.md R319). -/
theorem step_next (s : State) : ∃ t, step s = .next t := by
  rcases step_cases s with ⟨u, -, -, e⟩ | ⟨u, i, -, -, -, e⟩ | ⟨u, r, -, -, -, e⟩ | ⟨i, rest, -, e⟩ | ⟨i, v, rest, -, e⟩ |
    ⟨f, rest, -, e⟩ | ⟨rest, -, -, e⟩ <;> rw [e]
  case inr.inl => exact exec_next i u
  all_goals exact ⟨_, rfl⟩

/-- A command changes no parameter (10_state.md R44). -/
theorem exec_params {i : Instr} (h : exec i s = .next t) : t.params = s.params := by
  rcases exec_cases i s with ⟨-, e⟩ | ⟨-, -, e⟩ | ⟨x, -, -, -, e⟩ | ⟨x, b, -, -, -, -, e⟩ <;> rw [h] at e
  all_goals
    cases e
    rfl

/-- Nor does a host write. -/
theorem hostWrite_params (i : BitVec 6) (v : Word) (s : State) : (hostWrite i v s).params = s.params := by
  rcases hostWrite_cases i v s with ⟨_, _, e⟩ | ⟨_, _, e⟩ | ⟨_, e⟩ | ⟨_, e⟩ | ⟨_, e⟩ | ⟨_, e⟩ | ⟨_, e⟩ <;>
    exact (congrArg State.params e).trans rfl

/-- Nor the reset input. -/
theorem resetInput_params (f : Bool) (s : State) : (resetInput f s).params = s.params := by
  rcases resetInput_cases f s with ⟨x, -, -, e⟩ | ⟨-, e⟩ <;> exact (congrArg State.params e).trans rfl

/-- So no step does. -/
theorem step_params (h : step s = .next t) : t.params = s.params := by
  rcases step_cases s with ⟨u, hv, -, e⟩ | ⟨u, i, hv, -, -, e⟩ | ⟨u, r, hv, -, -, e⟩ | ⟨i, rest, -, e⟩ |
    ⟨i, v, rest, -, e⟩ | ⟨f, rest, -, e⟩ | ⟨rest, -, -, e⟩ <;> rw [h] at e
  · cases e
    rw [State.sequencerView_eq hv]
  · rw [exec_params e.symm, State.sequencerView_eq hv]
  · cases e
    rw [raiseErr_params, State.sequencerView_eq hv]
  · cases e
    rfl
  · cases e
    exact hostWrite_params i v _
  · cases e
    exact resetInput_params f _
  · cases e
    rfl

/-- The invariant is kept while turns are used up. -/
theorem State.Inv.sequencerView {u : State} (h : s.Inv) (hv : s.sequencerView = some u) : u.Inv := by
  rw [State.sequencerView_eq hv]
  exact h.congr rfl rfl rfl rfl rfl rfl rfl

/-- The same of the first turn. -/
theorem State.Inv.nextTurn (h : s.Inv) : s.nextTurn.Inv := h.congr rfl rfl rfl rfl rfl rfl rfl

/-- Every step keeps the invariant. -/
theorem step_inv (hi : s.Inv) (h : step s = .next t) : t.Inv := by
  rcases step_cases s with ⟨u, hv, -, e⟩ | ⟨u, i, hv, hp, hd, e⟩ | ⟨u, r, hv, -, -, e⟩ | ⟨i, rest, -, e⟩ |
    ⟨i, v, rest, -, e⟩ | ⟨f, rest, -, e⟩ | ⟨rest, -, -, e⟩ <;> rw [h] at e
  · cases e
    exact hi.sequencerView hv
  · exact exec_inv (hi.sequencerView hv) hp hd e.symm
  · cases e
    exact raiseErr_inv .illegal (hi.sequencerView hv)
  · cases e
    exact hi.nextTurn.congr rfl rfl rfl rfl rfl rfl rfl
  · cases e
    exact hostWrite_inv i v hi.nextTurn
  · cases e
    exact resetInput_inv f hi.nextTurn
  · cases e
    exact hi.nextTurn

end

/-- Settles O57: the reset state is the reset of its own registers, with an empty bus log. -/
theorem resetMeetsTheInvariant : Obligations.ResetMeetsTheInvariant :=
  resetState_inv (s := State.reset) nofun

/-- Settles O58: a step answers, keeps the parameters and keeps the invariant. -/
theorem everyStepKeepsTheInvariant : Obligations.EveryStepKeepsTheInvariant := by
  unfold Obligations.EveryStepKeepsTheInvariant
  exact fun s => ⟨step_next s, fun _ => step_params, fun hi _ => step_inv hi⟩

end Sys2Proof.Machine
end

section
/-! The responses of the transport (20_memory.md R66) and the bit patterns of binary64 values (20_memory.md R74). -/

namespace Sys2Proof.Machine

/-! ### Responses -/

/-- Settles O22: the answer is the scripted response made to conform, and a conforming response has the length asked for. -/
theorem responsesHaveExactLength : Obligations.ResponsesHaveExactLength := by
  unfold Obligations.ResponsesHaveExactLength
  refine fun s t => ⟨fun b rest h => ?_, fun rest h => State.answer_scripted t h, State.answer_cases t s⟩
  rw [State.answer_scripted t h]
  cases t <;> rfl

/-! ### Bit patterns -/

/-- A bit pattern is its sign, exponent and fraction side by side. -/
theorem Fl.exists_fields (w : Word) : ∃ (neg : Bool) (ex : BitVec 11) (fr : BitVec 52), w = Fl.signBit neg ++ ex ++ fr := by
  refine ⟨w.msb, w.extractLsb' 52 11, w.extractLsb' 0 52, ?_⟩
  have hsign : Fl.signBit w.msb = w.extractLsb' 63 1 := by
    refine BitVec.eq_of_getElem_eq fun i hi => ?_
    obtain rfl : i = 0 := by omega
    simp [Fl.signBit, BitVec.msb_eq_getLsbD_last]
  rw [hsign, BitVec.extractLsb'_append_extractLsb'_eq_extractLsb' (show 63 = 52 + 11 from rfl),
    BitVec.extractLsb'_append_extractLsb'_eq_extractLsb' (show 52 = 0 + 52 from rfl), BitVec.extractLsb'_eq_self]

/-- The value of three fields is written back as those fields: an exponent of 0 keeps the significand below `2^52`, one of
2047 marks infinity or NaN, any other puts the hidden bit back. -/
theorem Fl.toBits_ofBits_append (neg : Bool) (ex : BitVec 11) (fr : BitVec 52) :
    (Fl.ofBits (Fl.signBit neg ++ ex ++ fr)).toBits = Fl.signBit neg ++ ex ++ fr := by
  rw [Fl.ofBits_append]
  split_ifs with h0 hmax hfr
  · have hex : ex = 0 := BitVec.eq_of_toNat_eq h0
    rw [Fl.toBits, if_pos fr.isLt, BitVec.ofNat_toNat, BitVec.setWidth_eq, hex]
  · have hex : ex = BitVec.allOnes 11 := BitVec.eq_of_toNat_eq hmax
    rw [Fl.toBits, hex, hfr]
  · have hex : ex = BitVec.allOnes 11 := BitVec.eq_of_toNat_eq hmax
    rw [Fl.toBits, hex]
  · rw [Fl.toBits, if_neg (by omega), Int.sub_add_cancel, Int.toNat_natCast, Nat.add_sub_cancel_left, BitVec.ofNat_toNat,
      BitVec.ofNat_toNat, BitVec.setWidth_eq, BitVec.setWidth_eq]

/-- Settles O56: a pattern by its fields; a number by `Fl.ofBits_toBits`. -/
theorem bitPatternsRoundTrip : Obligations.BitPatternsRoundTrip := by
  unfold Obligations.BitPatternsRoundTrip
  refine ⟨fun w => ?_, fun x => Fl.ofBits_toBits⟩
  obtain ⟨neg, ex, fr, rfl⟩ := Fl.exists_fields w
  exact Fl.toBits_ofBits_append neg ex fr

end Sys2Proof.Machine
end

section
/-! Decoding (30_encoding.md R90 to R93): a word is its fields, and it decodes to a command exactly when its fields are the
command's. -/

namespace Sys2Proof

/-- A word is put together from its fields (30_encoding.md R90). -/
theorem CommandWord.toWord_ofWord (w : Word) : (CommandWord.ofWord w).toWord = w := by
  rw [CommandWord.ofWord, CommandWord.toWord,
    BitVec.extractLsb'_append_extractLsb'_eq_extractLsb' (show 10 = 8 + 2 from rfl),
    BitVec.extractLsb'_append_extractLsb'_eq_extractLsb' (show 8 = 0 + 8 from rfl), BitVec.extractLsb'_eq_self]

/-- The fields of a word put together from fields are those fields. -/
theorem CommandWord.ofWord_toWord (c : CommandWord) : CommandWord.ofWord c.toWord = c := by
  obtain ⟨opc, src, rsvd⟩ := c
  have hopc : (rsvd ++ src ++ opc).extractLsb' 0 8 = opc := BitVec.extractLsb'_append_eq_right
  have hsrc : (rsvd ++ src ++ opc).extractLsb' 8 2 = src :=
    (BitVec.extractLsb'_append_eq_of_le le_rfl).trans BitVec.extractLsb'_append_eq_right
  have hrsvd : (rsvd ++ src ++ opc).extractLsb' 10 54 = rsvd :=
    (BitVec.extractLsb'_append_eq_of_le (by decide)).trans BitVec.extractLsb'_append_eq_left
  exact (CommandWord.mk.injEq ..).mpr ⟨hopc, hsrc, hrsvd⟩

/-- The tests of 30_encoding.md R93 single out the fields of each command. -/
theorem CommandWord.decode_eq_ok_iff (c : CommandWord) (i : Instr) : c.decode = .ok i ↔ c = i.fields := by
  constructor
  · obtain ⟨opc, src, rsvd⟩ := c
    intro h
    simp only [CommandWord.decode, ite_eq_iff, ne_eq, not_not, Except.ok.injEq, reduceCtorEq, and_false, false_or,
      or_false] at h
    obtain ⟨rfl, ⟨rfl, ⟨rfl, rfl⟩ | ⟨-, ⟨rfl, rfl⟩ | ⟨-, rfl, rfl⟩⟩⟩ | ⟨-, rfl, ⟨rfl, rfl⟩ | ⟨-, ⟨rfl, rfl⟩ |
      ⟨-, ⟨rfl, rfl⟩ | ⟨-, ⟨rfl, rfl⟩ | ⟨-, ⟨rfl, rfl⟩ | ⟨-, ⟨rfl, rfl⟩ | ⟨-, rfl, rfl⟩⟩⟩⟩⟩⟩⟩⟩ := h
    all_goals rfl
  · rintro rfl
    cases i <;> rfl

/-- A word decodes to a command exactly when it is the command's word. -/
theorem decode_eq_ok_iff (w : Word) (i : Instr) : decode w = .ok i ↔ w = encode i := by
  rw [decode, CommandWord.decode_eq_ok_iff, encode]
  constructor
  · intro h
    rw [← h, CommandWord.toWord_ofWord]
  · rintro rfl
    exact CommandWord.ofWord_toWord _

/-- Settles O1: `decode_eq_ok_iff` in both directions. -/
theorem decodeInvertsEncode : Obligations.DecodeInvertsEncode := by
  unfold Obligations.DecodeInvertsEncode
  exact ⟨fun i => (decode_eq_ok_iff _ i).2 rfl, fun w i => (decode_eq_ok_iff w i).1⟩

/-- A word decodes to an error exactly when it decodes to no command. -/
theorem decode_error_iff (w : Word) : (∃ r, decode w = .error r) ↔ ¬∃ i, decode w = .ok i := by
  cases decode w <;> simp

/-- The words that decode to a command (30_encoding.md R93). -/
theorem exists_decode_ok_iff (w : Word) :
    (∃ i, decode w = .ok i) ↔ w ∈ ([0x0, 0x1, 0x2, 0x10, 0x11, 0x12, 0x112, 0x212, 0x13, 0x14] : List Word) := by
  simp only [decode_eq_ok_iff]
  constructor
  · rintro ⟨i, rfl⟩
    cases i <;> decide
  · have hwords : ([0x0, 0x1, 0x2, 0x10, 0x11, 0x12, 0x112, 0x212, 0x13, 0x14] : List Word) =
        [Instr.nop, .climInit, .climSample, .gasInit, .gasReady, .gasComp, .gasCompOpnd, .gasCompClim, .gasUpdate,
          .gasSample].map encode := by decide
    rw [hwords, List.mem_map]
    rintro ⟨i, -, rfl⟩
    exact ⟨i, rfl⟩

/-- The words that do not (30_encoding.md R94). -/
theorem exists_decode_error_iff (w : Word) :
    (∃ r, decode w = .error r) ↔ w ∉ ([0x0, 0x1, 0x2, 0x10, 0x11, 0x12, 0x112, 0x212, 0x13, 0x14] : List Word) := by
  rw [decode_error_iff, exists_decode_ok_iff]

/-- A word decodes to a command exactly when its fields, as numbers, are the command's. -/
theorem decode_eq_ok_iff_fields (w : Word) (i : Instr) :
    decode w = .ok i ↔
      w.toNat / 1024 = 0 ∧ w.toNat / 256 % 4 = i.fields.src.toNat ∧ w.toNat % 256 = i.fields.opc.toNat := by
  have hword : (encode i).toNat = 256 * i.fields.src.toNat + i.fields.opc.toNat := by
    cases i <;> rfl
  have hopc := i.fields.opc.isLt
  have hsrc := i.fields.src.isLt
  rw [decode_eq_ok_iff, ← BitVec.toNat_inj, hword]
  omega

/-- A word whose fields, as numbers, are no command's decodes to an error. -/
theorem decode_error_of_fields {w : Word}
    (h : ∀ i : Instr, w.toNat / 256 % 4 = i.fields.src.toNat → w.toNat % 256 = i.fields.opc.toNat → w.toNat / 1024 ≠ 0) :
    ∃ r, decode w = .error r := by
  rw [decode_error_iff]
  rintro ⟨i, hi⟩
  obtain ⟨hrsvd, hsrc, hopc⟩ := (decode_eq_ok_iff_fields w i).1 hi
  exact h i hsrc hopc hrsvd

/-- Settles O2: a clause that names a command is `decode_eq_ok_iff_fields`; the others are `decode_error_of_fields`, and the
count is `exists_decode_ok_iff`. -/
theorem decodeFollowsFields : Obligations.DecodeFollowsFields := by
  unfold Obligations.DecodeFollowsFields
  intro w opc src rsvd
  have hok (i : Instr) (h0 : rsvd = 0) (hs : src = i.fields.src.toNat) (ho : opc = i.fields.opc.toNat) : decode w = .ok i :=
    (decode_eq_ok_iff_fields w i).2 ⟨h0, hs, ho⟩
  refine ⟨fun h0 => decode_error_of_fields fun _ _ _ => h0,
    fun _ _ hs => decode_error_of_fields fun i hs' _ _ => ?reservedSource,
    fun h0 ho hs => hok _ h0 hs ho, fun h0 ho hs => hok _ h0 hs ho, fun h0 ho hs => hok _ h0 hs ho,
    fun _ ho hs => decode_error_of_fields fun i hs' ho' _ => ?unexpectedSource,
    fun h0 hs ho => hok _ h0 hs ho, fun h0 hs ho => hok _ h0 hs ho, fun h0 hs ho => hok _ h0 hs ho,
    fun h0 hs ho => hok _ h0 hs ho, fun h0 hs ho => hok _ h0 hs ho, fun h0 hs ho => hok _ h0 hs ho,
    fun h0 hs ho => hok _ h0 hs ho, fun _ _ ho => decode_error_of_fields fun i _ ho' _ => ?unassigned, exists_decode_ok_iff w⟩
  case reservedSource =>
    have hne : i.fields.src.toNat ≠ 3 := by cases i <;> decide
    exact hne (hs'.symm.trans hs)
  case unexpectedSource =>
    have hlegal : i.fields.src.toNat = 0 ∨ i.fields.opc.toNat = 0x12 := by cases i <;> decide
    exact hlegal.elim (fun h => hs (hs'.trans h)) fun h => ho (ho'.trans h)
  case unassigned =>
    have hmem : i.fields.opc.toNat ∈ [0x00, 0x01, 0x02, 0x10, 0x11, 0x12, 0x13, 0x14] := by cases i <;> decide
    rw [← ho'] at hmem
    exact ho hmem

/-- Settles O3: the words of 95_test_vectors.md V1, evaluated. -/
theorem specWordsDecode : Obligations.SpecWordsDecode := by
  unfold Obligations.SpecWordsDecode
  exact ⟨by decide, by decide, by decide, by decide, ⟨.reservedSource, by decide⟩, ⟨.unexpectedSource, by decide⟩,
    ⟨.reservedBits, by decide⟩⟩

end Sys2Proof
end

section
/-! The execution template (30_encoding.md R98 to R104): the precheck and the schedule of each command, and what each way a step
can go writes. -/

namespace Sys2Proof.Machine

/-! ### One step -/

/-- Settles O4: the sequencer's step on its own view, which runs a legal word. -/
theorem stepRunsDecodedCommand : Obligations.StepRunsDecodedCommand := by
  unfold Obligations.StepRunsDecodedCommand
  intro s t i hv hp hd
  rw [step_sequencer hv, runSequencer_run hp hd]

/-- The whole state after an error (60_exceptions.md R300). -/
theorem raiseErr_eq (e : ErrCode) (s : State) :
    raiseErr e s =
      { s with err := e, done := true, events := s.events ||| e.event, seq := { s.seq with phase := .idle } } := by
  rw [raiseErr, complete, State.unchanged_events, show s.events ||| 0 = s.events from BitVec.or_zero]
  rfl

/-- Settles O21: the template with a transaction due and an OK response. -/
theorem transactionStagesResponseBytes : Obligations.TransactionStagesResponseBytes := by
  unfold Obligations.TransactionStagesResponseBytes
  intro i s t b hp hn ha
  rw [exec_eq_advance, hp, advance_transact hn, transact_ok ha]
  rfl

/-- Settles O23: the template with a transaction due and a FAIL. -/
theorem failedTransactionEndsCommand : Obligations.FailedTransactionEndsCommand := by
  unfold Obligations.FailedTransactionEndsCommand
  intro i s t hp hn ha
  rw [exec_eq_advance, hp, advance_transact hn, transact_fail ha, raiseErr_eq]
  rfl

/-- Settles O5: an issued illegal word runs into the ILLEGAL error, and STATUS shows the state after it by
`statusShowsEachField`. -/
theorem illegalWordCompletesWithIllegal : Obligations.IllegalWordCompletesWithIllegal := by
  unfold Obligations.IllegalWordCompletesWithIllegal
  refine ⟨fun s w r hd => ⟨_, ?_, rfl, rfl, ?_⟩, exists_decode_error_iff⟩
  · rw [runSequencer_illegal (s := issue w s) rfl hd, raiseErr_eq]
    rfl
  · obtain ⟨hbusy, hdone, -, herr, -⟩ := statusShowsEachField _
    exact ⟨hbusy, hdone, BitVec.eq_of_toNat_eq herr⟩

/-- The event bit of each error code (60_exceptions.md R300). -/
theorem ErrCode.event_getLsbD {k : Nat} (e : ErrCode) (hk : k < 11) :
    e.event.getLsbD k = true ↔
      (k = 8 ∧ e = .transport) ∨ (k = 9 ∧ e ∈ [ErrCode.illegal, .notInit, .envRange, .noClimate]) := by
  revert k
  cases e <;> decide

/-- Settles O25: the fields of a completion, and its event bits by `ErrCode.event_getLsbD`. -/
theorem completionWritesStatusAndEvents : Obligations.CompletionWritesStatusAndEvents := by
  unfold Obligations.CompletionWritesStatusAndEvents
  refine fun e w s => ⟨rfl, rfl, rfl, rfl, rfl, fun k hk => ?_, rfl, rfl, rfl, rfl, rfl, rfl⟩
  rw [complete_events, BitVec.getLsbD_or, BitVec.getLsbD_or, Bool.or_eq_true, Bool.or_eq_true, e.event_getLsbD hk, or_assoc]

/-! ### Prechecks -/

/-- The precheck of GAS.COMP with operands that need no sample (30_encoding.md R99). -/
theorem compPrecheck_of_ne_climate {src : EnvSource} (h : src ≠ .climate) (s : State) :
    compPrecheck src s =
      if s.gas.st = .uninit then .notInit
      else if encEnv s.params.roundTies (envOperands src s).1 (envOperands src s).2 = none then .envRange else .ok := by
  simp only [compPrecheck, h, false_and, if_false, compWords, Option.isNone_iff_eq_none]

/-- The precheck of GAS.COMP.CLIM. -/
theorem compPrecheck_climate (s : State) :
    compPrecheck .climate s =
      if s.gas.st = .uninit then .notInit
      else if s.climate.thValid = false then .noClimate
      else if encEnv s.params.roundTies s.climate.humPct s.climate.tempC = none then .envRange else .ok := by
  simp only [compPrecheck, true_and, compWords, envOperands, Option.isNone_iff_eq_none]

/-- The precheck of CLIM.SAMPLE with its error first. -/
theorem climSamplePrecheck_eq (s : State) :
    climSamplePrecheck s = if s.climate.calValid = false then .notInit else .ok := by
  unfold climSamplePrecheck
  cases s.climate.calValid <;> rfl

/-- Settles O18: an illegal word ends with ILLEGAL; the commands' prechecks, one by one. -/
theorem precheckReportsFirstFailure : Obligations.PrecheckReportsFirstFailure := by
  unfold Obligations.PrecheckReportsFirstFailure
  refine ⟨fun s r hp hd => ⟨_, runSequencer_illegal hp hd, rfl⟩, fun s => ⟨rfl, rfl, rfl, climSamplePrecheck_eq s, ?gas,
    compPrecheck_of_ne_climate (src := .default) nofun s, compPrecheck_of_ne_climate (src := .operands) nofun s,
    compPrecheck_climate s⟩⟩
  case gas =>
    simp only [List.forall_mem_cons, List.not_mem_nil, false_imp_iff, implies_true, and_true]
    exact ⟨rfl, rfl, rfl⟩

/-! ### Schedules -/

/-- The block of two environment words, high byte first (20_memory.md R72). -/
theorem envBytes_eq_ofNat (hw tw : BitVec 16) :
    envBytes hw tw =
      #v[BitVec.ofNat 8 (hw.toNat / 256), BitVec.ofNat 8 hw.toNat, BitVec.ofNat 8 (tw.toNat / 256),
        BitVec.ofNat 8 tw.toNat] := by
  have hhigh (v : BitVec 16) : v.extractLsb' 8 8 = BitVec.ofNat 8 (v.toNat / 256) := by
    rw [BitVec.extractLsb', Nat.shiftRight_eq_div_pow]
  have hlow (v : BitVec 16) : v.extractLsb' 0 8 = BitVec.ofNat 8 v.toNat := rfl
  simp only [envBytes, hhigh, hlow]

/-- GAS.COMP's schedule where the encoder accepts its operands (30_encoding.md R100). -/
theorem compSchedule_of_encEnv {src : EnvSource} {s : State} {hw tw : BitVec 16}
    (h : encEnv s.params.roundTies (envOperands src s).1 (envOperands src s).2 = some (hw, tw)) :
    compSchedule src s = [.wrBlock s.gasAddr 0x05 4 (envBytes hw tw)] := by
  rw [compSchedule, compWords, h]

/-- An update's schedule by bit 3 of the first staged byte (30_encoding.md R101). -/
theorem updateSchedule_eq (ga : Byte) (buf : List Byte) :
    updateSchedule ga buf =
      if (byteAt buf 0).getLsbD 3 then [.rdByte ga 0x00, .rdBlock ga 0x02 8] else [.rdByte ga 0x00] := by
  rw [updateSchedule, dataReady]
  split <;> rfl

/-- Settles O20: the fixed schedules with their bytes evaluated, then the GAS.COMP commands and the updates. -/
theorem schedulesFollowTable : Obligations.SchedulesFollowTable := by
  unfold Obligations.SchedulesFollowTable
  refine fun s => ⟨rfl, rfl, rfl, rfl, rfl, fun i h t hw tw hmem henc => ?comp, ?update⟩
  case comp =>
    rw [← envBytes_eq_ofNat]
    simp only [List.mem_cons, List.not_mem_nil, or_false, Prod.mk.injEq] at hmem
    obtain ⟨rfl, rfl, rfl⟩ | ⟨rfl, rfl, rfl⟩ | ⟨rfl, rfl, rfl⟩ := hmem
    · exact compSchedule_of_encEnv (src := .default) henc
    · exact compSchedule_of_encEnv (src := .operands) henc
    · exact compSchedule_of_encEnv (src := .climate) henc
  case update =>
    simp only [List.forall_mem_cons, List.not_mem_nil, false_imp_iff, implies_true, and_true]
    exact ⟨updateSchedule_eq _ _, updateSchedule_eq _ _⟩

end Sys2Proof.Machine
end

section
/-! What a command may change, and what it may depend on (30_encoding.md R95, R103, R104). -/

namespace Sys2Proof.Machine

/-! ### Commits -/

/-- A step whose turn is not the reset input has no reset pending first. -/
theorem turns_ne_reset {s : State} (h : s.resetNext = false) (f : Bool) (rest : List Turn) :
    s.env.turns ≠ .reset f :: rest := by
  intro ht
  rw [State.resetNext, ht] at h
  cases h

/-- Settles O24: the units stay, or the step is the running command's completion. -/
theorem unitRegistersChangeOnlyAtCompletion : Obligations.UnitRegistersChangeOnlyAtCompletion := by
  unfold Obligations.UnitRegistersChangeOnlyAtCompletion
  intro s t h hr
  exact (step_commit_cases h (turns_ne_reset hr)).imp_right fun ⟨_, _, _, hp, _, _, _, ht⟩ => ht ▸ ⟨hp, rfl, rfl, rfl⟩

/-! ### Frames -/

/-- What holds of the units before a command's step and of the units it commits holds of the units after the step. -/
theorem exec_units {i : Instr} {s t : State} (h : exec i s = .next t) {P : ClimateUnit → GasUnit → Prop}
    (hs : P s.climate s.gas) (hc : P (effectsOf i s).climate (effectsOf i s).gas) : P t.climate t.gas := by
  rcases exec_commit_cases h with ⟨hclim, hgas⟩ | ⟨-, -, rfl⟩
  · rwa [hclim, hgas]
  · exact hc

/-- GAS.COMP commits ENV_WORDS alone (43_gas_commands.md R243). -/
theorem compEffects_gas (src : EnvSource) (s : State) :
    (compEffects src s).gas =
      { s.gas with humWord := (compEffects src s).gas.humWord, tempWord := (compEffects src s).gas.tempWord } := by
  rw [compEffects]
  cases compWords src s <;> rfl

/-- An update keeps GAS_DRIVE and ENV_WORDS (43_gas_commands.md R246, R248). -/
theorem updateEffects_gas (s : State) :
    (updateEffects s).gas.drive = s.gas.drive ∧ (updateEffects s).gas.humWord = s.gas.humWord ∧
      (updateEffects s).gas.tempWord = s.gas.tempWord := by
  unfold updateEffects
  split <;> exact ⟨rfl, rfl, rfl⟩

/-- What no command's step changes, and what only grows (30_encoding.md R95, R103, R104). -/
theorem exec_frame {i : Instr} {s t : State} (h : exec i s = .next t) :
    t.cmd = s.cmd ∧ t.config = s.config ∧ t.envHIn = s.envHIn ∧ t.envTIn = s.envTIn ∧ t.params = s.params ∧
    t.seq.cmd = s.seq.cmd ∧ t.seq.cfg = s.seq.cfg ∧ t.seq.envH = s.seq.envH ∧ t.seq.envT = s.seq.envT ∧
    t.env.turns = s.env.turns ∧ t.env.readLog = s.env.readLog ∧
    s.seq.step ≤ t.seq.step ∧ s.seq.buf <+: t.seq.buf ∧ s.env.busLog <+: t.env.busLog := by
  rcases exec_cases i s with ⟨-, e⟩ | ⟨-, -, e⟩ | ⟨x, -, -, -, e⟩ | ⟨x, b, -, -, -, -, e⟩ <;> rw [h] at e <;> cases e
  all_goals refine ⟨rfl, rfl, rfl, rfl, rfl, rfl, rfl, rfl, rfl, rfl, rfl, ?_, ?_, ?_⟩
  all_goals simp

/-- Settles O28: the common frame, then the commit of each writing command. -/
theorem commandsLeaveTheirFrame : Obligations.CommandsLeaveTheirFrame := by
  unfold Obligations.CommandsLeaveTheirFrame
  refine ⟨fun i s t => exec_frame, fun s t => ⟨fun h => ?sample, fun h => ?ready, ?comp, ?update⟩⟩
  case sample =>
    exact exec_units h (P := fun u _ => u.cal = s.climate.cal ∧ u.calValid = s.climate.calValid) ⟨rfl, rfl⟩ ⟨rfl, rfl⟩
  case ready => exact exec_units h (P := fun _ g => g = { s.gas with ready := g.ready }) rfl rfl
  case comp =>
    have hcomp {i : Instr} {src : EnvSource} (hi : effectsOf i s = compEffects src s) (h : exec i s = .next t) :
        t.gas = { s.gas with humWord := t.gas.humWord, tempWord := t.gas.tempWord } :=
      exec_units h (P := fun _ g => g = { s.gas with humWord := g.humWord, tempWord := g.tempWord }) rfl
        (hi ▸ compEffects_gas src s)
    simp only [List.forall_mem_cons, List.not_mem_nil, false_imp_iff, implies_true, and_true]
    exact ⟨hcomp rfl, hcomp rfl, hcomp rfl⟩
  case update =>
    have hupdate {i : Instr} (hi : effectsOf i s = updateEffects s) (h : exec i s = .next t) :
        t.gas.drive = s.gas.drive ∧ t.gas.humWord = s.gas.humWord ∧ t.gas.tempWord = s.gas.tempWord :=
      exec_units h (P := fun _ g => g.drive = s.gas.drive ∧ g.humWord = s.gas.humWord ∧ g.tempWord = s.gas.tempWord)
        ⟨rfl, rfl, rfl⟩ (hi ▸ updateEffects_gas s)
    simp only [List.forall_mem_cons, List.not_mem_nil, false_imp_iff, implies_true, and_true]
    exact ⟨hupdate rfl, hupdate rfl⟩

/-! ### The latches -/

/-- The latches of two sequencers agree (30_encoding.md R95). -/
structure Sequencer.SameLatches (q r : Sequencer) : Prop where
  cmd  : q.cmd = r.cmd
  cfg  : q.cfg = r.cfg
  envH : q.envH = r.envH
  envT : q.envT = r.envT

/-- Only an issue or the reset input writes the latches, and while a command runs no word is issued. -/
theorem step_latches {s t : State} (hs : s.seq.phase = .run) (h : step s = .next t) (hr : s.resetNext = false) :
    t.seq.SameLatches s.seq := by
  rcases step_cases s with ⟨u, hv, -, e⟩ | ⟨u, i, hv, -, -, e⟩ | ⟨u, r, hv, -, -, e⟩ | ⟨i, rest, -, e⟩ |
    ⟨i, v, rest, -, e⟩ | ⟨f, rest, ht, -⟩ | ⟨rest, -, -, e⟩
  case inr.inr.inr.inr.inr.inl => exact absurd ht (turns_ne_reset hr f rest)
  all_goals rw [h] at e
  · cases e
    rw [State.sequencerView_eq hv]
    exact ⟨rfl, rfl, rfl, rfl⟩
  · obtain ⟨-, -, -, -, -, hcmd, hcfg, hh, ht, -⟩ := exec_frame e.symm
    rw [State.sequencerView_eq hv] at hcmd hcfg hh ht
    exact ⟨hcmd, hcfg, hh, ht⟩
  · cases e
    rw [State.sequencerView_eq hv]
    exact ⟨rfl, rfl, rfl, rfl⟩
  · cases e
    exact ⟨rfl, rfl, rfl, rfl⟩
  · cases e
    rcases hostWrite_cases i v s.nextTurn with ⟨_, hidle, _⟩ | ⟨_, _, e⟩ | ⟨_, e⟩ | ⟨_, e⟩ | ⟨_, e⟩ | ⟨_, e⟩ | ⟨_, e⟩
    case inl => exact absurd (hs.symm.trans hidle) (by decide)
    all_goals
      rw [e]
      exact ⟨rfl, rfl, rfl, rfl⟩
  · cases e
    exact ⟨rfl, rfl, rfl, rfl⟩

/-- Settles O47: while the command runs on, nothing its precheck reads is written. -/
theorem precheckIsStableWhileRunning : Obligations.PrecheckIsStableWhileRunning := by
  unfold Obligations.PrecheckIsStableWhileRunning
  intro i s t hs h ht hr
  obtain ⟨hcmd, -, hh, htemp⟩ := step_latches hs h hr
  obtain ⟨hclim, hgas⟩ | ⟨-, hidle, -⟩ := unitRegistersChangeOnlyAtCompletion s t h hr
  · exact ⟨precheckOf_congr i (step_params h) hclim hgas hh htemp, hcmd⟩
  · exact absurd (ht.symm.trans hidle) (by decide)

/-! ### What a running command depends on -/

section
variable {s t : State}

/-- Two states with the same view differ in the host's registers, the pending turns and the logs alone. -/
theorem SameCommandView.exists_eq (h : SameCommandView s t) :
    t = { s with cmd := t.cmd, done := t.done, err := t.err, events := t.events, config := t.config, envHIn := t.envHIn,
                 envTIn := t.envTIn,
                 env := { s.env with turns := t.env.turns, busLog := t.env.busLog, readLog := t.env.readLog } } := by
  obtain ⟨hseq, hclim, hgas, hpar, hans, hdraws⟩ := h
  simp only [hseq, hclim, hgas, hpar, hans, hdraws]

/-- The precheck reads the view alone. -/
theorem SameCommandView.precheckOf_eq (h : SameCommandView s t) (i : Instr) : precheckOf i s = precheckOf i t := by
  rw [h.exists_eq]
  cases i <;> rfl

/-- So does the next transaction. -/
theorem SameCommandView.nextTxnOf_eq (h : SameCommandView s t) (i : Instr) : nextTxnOf i s = nextTxnOf i t := by
  rw [h.exists_eq]
  cases i <;> rfl

/-- So do the effects. -/
theorem SameCommandView.effectsOf_eq (h : SameCommandView s t) (i : Instr) : effectsOf i s = effectsOf i t := by
  rw [h.exists_eq]
  cases i <;> rfl

/-- What two runs of a command from `s` and `t` share in the step to `s'` and `t'`: the view, the new bus records, the new
events, and at a completion the code and DONE. -/
structure SameProgress (s t s' t' : State) : Prop where
  view   : SameCommandView s' t'
  shown  : ∃ (L : List BusRecord) (x : BitVec 11),
    s'.env.busLog = s.env.busLog ++ L ∧ t'.env.busLog = t.env.busLog ++ L ∧
    s'.events = s.events ||| x ∧ t'.events = t.events ||| x
  status : s.seq.phase = .run → s'.seq.phase = .idle → s'.err = t'.err ∧ s'.done = t'.done

/-- A transaction recorded in both runs keeps their views the same. -/
theorem SameCommandView.logBus (h : SameCommandView s t) (x : Transaction) (r : Option BusResponse) :
    SameCommandView (s.logBus x r) (t.logBus x r) :=
  ⟨h.seq, h.climate, h.gas, h.params, congrArg List.tail h.answers, congrArg (· + 1) h.draws⟩

/-- The same completion in both runs. -/
theorem SameCommandView.complete (h : SameCommandView s t) (e : ErrCode) (w : Effects) :
    SameCommandView (complete e w s) (complete e w t) :=
  ⟨congrArg (fun q : Sequencer => { q with phase := .idle }) h.seq, rfl, rfl, h.params, h.answers, h.draws⟩

/-- The same error in both runs. -/
theorem SameCommandView.raiseErr (h : SameCommandView s t) (e : ErrCode) :
    SameCommandView (raiseErr e s) (raiseErr e t) :=
  ⟨congrArg (fun q : Sequencer => { q with phase := .idle }) h.seq, h.climate, h.gas, h.params, h.answers, h.draws⟩

/-- One template step with the same precheck, transaction and effects in both runs (30_encoding.md R98). -/
theorem SameCommandView.advance (h : SameCommandView s t) (pre : ErrCode) (next : Option Transaction) (eff : Effects) :
    SameProgress s t (advance pre next eff s) (advance pre next eff t) := by
  have hanswer (x : Transaction) : t.answer x = s.answer x := State.answer_congr x h.answers.symm h.draws.symm
  rcases advance_cases pre next eff s with ⟨hp, e⟩ | ⟨rfl, hn, e⟩ | ⟨x, rfl, hn, ha, e⟩ | ⟨x, b, rfl, hn, ha, -, e⟩ <;> rw [e]
  · rw [advance_error hp]
    exact ⟨h.raiseErr pre, ⟨[], pre.event, by simp, by simp, by rw [raiseErr_eq], by rw [raiseErr_eq]⟩,
      fun _ _ => ⟨rfl, rfl⟩⟩
  · rw [advance_complete hn]
    exact ⟨h.complete .ok eff, ⟨[], eff.events ||| ErrCode.ok.event, by simp, by simp, BitVec.or_assoc .., BitVec.or_assoc ..⟩,
      fun _ _ => ⟨rfl, rfl⟩⟩
  · rw [advance_transact hn, transact_fail ((hanswer x).trans ha)]
    exact ⟨(h.logBus x _).raiseErr .transport,
      ⟨_, ErrCode.transport.event, rfl, rfl, by rw [raiseErr_eq]; rfl, by rw [raiseErr_eq]; rfl⟩, fun _ _ => ⟨rfl, rfl⟩⟩
  · rw [advance_transact hn, transact_ok ((hanswer x).trans ha)]
    obtain ⟨-, hclim, hgas, hpar, hans, hdraws⟩ := h.logBus x (some (.ok b))
    refine ⟨⟨by rw [h.seq], hclim, hgas, hpar, hans, hdraws⟩, ⟨_, 0, rfl, rfl, BitVec.or_zero.symm, BitVec.or_zero.symm⟩,
      fun hrun hidle => absurd (hrun.symm.trans hidle) (by decide)⟩

end

/-- Settles O46: the template step of a command takes its precheck, transaction and effects from the view. -/
theorem runningCommandIgnoresHostRegisters : Obligations.RunningCommandIgnoresHostRegisters := by
  unfold Obligations.RunningCommandIgnoresHostRegisters
  intro i s t s' t' h hs ht
  rw [exec_eq_advance] at hs ht
  rw [← h.precheckOf_eq, ← h.nextTxnOf_eq, ← h.effectsOf_eq] at ht
  cases hs
  cases ht
  obtain ⟨hview, hshown, hstatus⟩ := h.advance (precheckOf i s) (nextTxnOf i s) (effectsOf i s)
  exact ⟨hview, hshown, hstatus⟩

end Sys2Proof.Machine
end

section
/-! The datapath (40_datapath.md): the sign-extender and the two unpackers as numbers, rounding to an integer and the environment
encoder, and the raw-pressure gate in front of CLIM.SAMPLE's commit. -/

namespace Sys2Proof.Machine

/-! ### Fields as numbers -/

/-- The sign-extender by the field's unsigned number. -/
theorem sext_toInt_eq_ite {n : Nat} (h0 : 0 < n) (hn : n ≤ 64) (v : BitVec n) :
    (sext v).toInt = if (2 : Int) ^ (n - 1) ≤ v.toNat then (v.toNat : Int) - 2 ^ n else v.toNat := by
  obtain ⟨m, rfl⟩ : ∃ m, n = m + 1 := ⟨n - 1, by omega⟩
  have hcond : 2 * v.toNat < 2 ^ (m + 1) ↔ ¬ (2 : Int) ^ m ≤ v.toNat := by
    rw [pow_succ']
    norm_cast
    omega
  rw [sext_toInt hn, BitVec.toInt_eq_toNat_cond, Nat.add_sub_cancel, if_congr hcond rfl rfl, ite_not]
  push_cast
  rfl

/-- Settles O48: the extended value is the field's own signed number. -/
theorem signExtenderSubtractsPowerOfTwo : Obligations.SignExtenderSubtractsPowerOfTwo := by
  unfold Obligations.SignExtenderSubtractsPowerOfTwo
  intro n hn v
  have h64 : n ≤ 64 := (by decide : ∀ n ∈ [8, 12, 16], n ≤ 64) n hn
  rw [sext_toInt h64]
  refine ⟨?_, v.le_toInt, Int.le_sub_one_of_lt v.toInt_lt⟩
  rw [BitVec.toInt_eq_msb_cond, BitVec.msb_eq_getLsbD_last]
  push_cast
  rfl

/-- The high nibble of a byte. -/
theorem highNibble_toNat (x : Byte) : (x.extractLsb' 4 4).toNat = x.toNat / 16 := by
  have hx := x.isLt
  rw [BitVec.extractLsb'_toNat, Nat.shiftRight_eq_div_pow]
  omega

/-- The low nibble of a byte. -/
theorem lowNibble_toNat (x : Byte) : (x.extractLsb' 0 4).toNat = x.toNat % 16 := by
  rw [BitVec.extractLsb'_toNat, Nat.shiftRight_zero]

/-- Settles O49: two bytes and a high nibble side by side, twice, then two bytes. -/
theorem rawUnpackerFollowsRule : Obligations.RawUnpackerFollowsRule := by
  unfold Obligations.RawUnpackerFollowsRule
  intro b0 b1 b2 b3 b4 b5 b6 b7
  have htwenty (x y z : Byte) :
      (x ++ y ++ z.extractLsb' 4 4).toNat = x.toNat * 2 ^ 12 + y.toNat * 2 ^ 4 + z.toNat / 16 := by
    rw [append_toNat, byte_append_toNat, highNibble_toNat]
    omega
  refine ⟨htwenty b0 b1 b2, htwenty b3 b4 b5, ?_⟩
  exact (byte_append_toNat b6 b7).trans (by omega)

/-- `h4` is byte 28 over the low nibble of byte 29 (40_datapath.md R134). -/
theorem humH4_toNat (c : List Byte) : (humH4 c).toNat = (byteAt c 28).toNat * 16 + (byteAt c 29).toNat % 16 := by
  rw [humH4, append_toNat, lowNibble_toNat]
  omega

/-- `h5` is byte 30 over the high nibble of byte 29 (40_datapath.md R134). -/
theorem humH5_toNat (c : List Byte) : (humH5 c).toNat = (byteAt c 30).toNat * 16 + (byteAt c 29).toNat / 16 := by
  rw [humH5, append_toNat, highNibble_toNat]
  omega

/-- A narrow field under each value of NARROW_SEXT (40_datapath.md R132). -/
theorem narrowSext_toInt {n : Nat} (hn : n < 64) (p : NarrowSext) (v : BitVec n) :
    (narrowSext p v).toInt = if p = .fieldWidth then (sext v).toInt else v.toNat := by
  cases p with
  | fieldWidth => rfl
  | rule16 => exact zext_toInt hn v

/-- Settles O50: the coefficients are signed or unsigned little-endian words, single bytes, and the three narrow fields. -/
theorem calibrationUnpackerFollowsByteMap : Obligations.CalibrationUnpackerFollowsByteMap := by
  unfold Obligations.CalibrationUnpackerFollowsByteMap
  intro p c _ b le sx nx u
  have hle (k : Nat) : ((le16 c k).toNat : Int) = le k := by
    rw [le16, byte_append_toNat, Nat.cast_add, Nat.cast_mul, mul_comm]
    rfl
  have hbyte (k : Nat) : (zext (byteAt c k)).toInt = b k := zext_toInt (by norm_num) _
  have hword (k : Nat) : (zext (le16 c k)).toInt = le k := (zext_toInt (by norm_num) _).trans (hle k)
  have hsext {n : Nat} (h0 : 0 < n) (hn : n < 64) (v : BitVec n) : (sext v).toInt = sx n v.toNat :=
    sext_toInt_eq_ite h0 hn.le v
  have hsigned (k : Nat) : (sext (le16 c k)).toInt = sx 16 (le k) := by
    rw [hsext (by norm_num) (by norm_num), hle]
  have hnarrow {n : Nat} (h0 : 0 < n) (hn : n < 64) (v : BitVec n) : (narrowSext p v).toInt = nx n v.toNat := by
    rw [narrowSext_toInt hn, hsext h0 hn]
  have h4 : ((humH4 c).toNat : Int) = b 28 * 16 + b 29 % 16 := congrArg Nat.cast (humH4_toNat c)
  have h5 : ((humH5 c).toNat : Int) = b 30 * 16 + b 29 / 16 := congrArg Nat.cast (humH5_toNat c)
  refine ⟨hword 0, hsigned 2, hsigned 4, hword 6, hsigned 8, hsigned 10, hsigned 12, hsigned 14, hsigned 16, hsigned 18,
    hsigned 20, hsigned 22, hbyte 24, hsigned 25, hbyte 27, ?_, ?_, hnarrow (by norm_num) (by norm_num) _⟩
  · exact (hnarrow (by norm_num) (by norm_num) _).trans (congrArg (nx 12) h4)
  · exact (hnarrow (by norm_num) (by norm_num) _).trans (congrArg (nx 12) h5)

/-! ### Rounding to an integer -/

/-- Rounding away is at most half a unit off, and above `m / 2^d` at a tie. -/
theorem Fl.shiftAway_near (m d : Nat) :
    |(Fl.shiftAway m d : ℚ) * 2 ^ d - m| ≤ 2 ^ d / 2 ∧
    (|(Fl.shiftAway m d : ℚ) * 2 ^ d - m| = 2 ^ d / 2 → (m : ℚ) < Fl.shiftAway m d * 2 ^ d) := by
  have hm : ((m / 2 ^ d : Nat) : ℚ) * 2 ^ d + (m % 2 ^ d : Nat) = m := by exact_mod_cast Nat.div_add_mod' m (2 ^ d)
  have hr : ((m % 2 ^ d : Nat) : ℚ) < 2 ^ d := by exact_mod_cast Nat.mod_lt m (Nat.two_pow_pos d)
  have h0 : (0 : ℚ) ≤ (m % 2 ^ d : Nat) := Nat.cast_nonneg _
  rcases Fl.shiftAway_spec m d with ⟨hk, hlow⟩ | ⟨hk, hhigh⟩
  · have hlow' : 2 * ((m % 2 ^ d : Nat) : ℚ) < 2 ^ d := by exact_mod_cast hlow
    rw [hk, abs_sub_comm, abs_of_nonneg (by linarith)]
    exact ⟨by linarith, fun heq => by linarith⟩
  · have hhigh' : (2 : ℚ) ^ d ≤ 2 * (m % 2 ^ d : Nat) := by exact_mod_cast hhigh
    rw [hk, Nat.cast_add_one, add_one_mul, abs_of_nonneg (by linarith)]
    exact ⟨by linarith, fun _ => by linarith⟩

/-- The distance of an integer from `m / 2^d`, in units of `2^-d`. -/
theorem abs_sub_mul_two_zpow_neg (k m d : Nat) : |(k : ℚ) - m * (2 : ℚ) ^ (-d : Int)| = |(k : ℚ) * 2 ^ d - m| / 2 ^ d := by
  have hpos : (0 : ℚ) < 2 ^ d := by positivity
  rw [eq_div_iff hpos.ne', ← abs_of_pos hpos, ← abs_mul, abs_of_pos hpos, zpow_neg, zpow_natCast, sub_mul,
    inv_mul_cancel_right₀ hpos.ne']

/-- The magnitude `roundInt` gives is nearest to the value's, and obeys ROUND_TIES at a tie (40_datapath.md R155). -/
theorem Fl.exists_roundInt (ties : RoundTies) (neg : Bool) (m : Nat) (e : Int) :
    ∃ k : Nat, (Fl.fin neg m e).roundInt ties = some (if neg then -(k : Int) else k) ∧
      |(k : ℚ) - m * (2 : ℚ) ^ e| ≤ 1 / 2 ∧
      (|(k : ℚ) - m * (2 : ℚ) ^ e| = 1 / 2 →
        (ties = .even → k % 2 = 0) ∧ (ties = .away → m * (2 : ℚ) ^ e < k)) := by
  refine ⟨_, rfl, ?_⟩
  split
  · rename_i he
    obtain ⟨d, rfl⟩ := Int.eq_ofNat_of_zero_le he
    norm_num
  · rename_i he
    obtain ⟨d, rfl⟩ : ∃ d : Nat, e = -(d : Int) := ⟨(-e).toNat, by omega⟩
    have hpos : (0 : ℚ) < 2 ^ d := by positivity
    rw [neg_neg, Int.toNat_natCast, abs_sub_mul_two_zpow_neg, div_le_iff₀ hpos, div_eq_iff hpos.ne', one_div_mul_eq_div]
    cases ties with
    | even =>
      obtain ⟨hnear, htie⟩ := (Fl.StandsFor.refl m).shiftEven_near (d := d) (.inl rfl)
      exact ⟨hnear, fun h => ⟨fun _ => htie h, nofun⟩⟩
    | away =>
      obtain ⟨hnear, htie⟩ := Fl.shiftAway_near m d
      refine ⟨hnear, fun h => ⟨nofun, fun _ => ?_⟩⟩
      rw [zpow_neg, zpow_natCast, mul_inv_lt_iff₀ hpos]
      exact htie h

/-- Settles O51: the magnitude by `Fl.exists_roundInt`, under the value's own sign. -/
theorem roundIntIsNearestWithTieRule : Obligations.RoundIntIsNearestWithTieRule := by
  unfold Obligations.RoundIntIsNearestWithTieRule
  intro ties neg m e x
  obtain ⟨k, hround, hnear, htie⟩ := Fl.exists_roundInt ties neg m e
  have hx : |x| = m * (2 : ℚ) ^ e := Fl.abs_toRat_fin neg m e
  refine ⟨_, hround, ?_⟩
  have hdist : |((if neg then -(k : Int) else k : Int) : ℚ) - x| = |(k : ℚ) - m * (2 : ℚ) ^ e| := by
    cases neg
    · simp [x, Fl.toRat]
    · rw [abs_sub_comm]
      simp [x, Fl.toRat, neg_add_eq_sub]
  have hmag : |((if neg then -(k : Int) else k : Int) : ℚ)| = k := by
    cases neg <;> simp
  rw [hdist, hmag, hx]
  refine ⟨hnear, fun h => ?_⟩
  obtain ⟨heven, haway⟩ := htie h
  cases ties with
  | even =>
    have hk := heven rfl
    show (if neg then -(k : Int) else k) % 2 = 0
    split <;> omega
  | away => exact haway rfl

/-! ### The environment encoder -/

/-- A word is accepted exactly when the value rounds to it. -/
theorem envWord_eq_some_iff (ties : RoundTies) (x : Fl) (w : BitVec 16) :
    envWord ties x = some w ↔ x.roundInt ties = some (w.toNat : Int) := by
  have hw := w.isLt
  unfold envWord
  split
  · rename_i hnone
    simp [hnone]
  · rename_i v hv
    rw [hv, Option.some_inj]
    constructor
    · intro h
      split at h
      · cases h
        rw [BitVec.toNat_ofInt]
        omega
      · cases h
    · rintro rfl
      rw [if_pos ⟨by omega, by omega⟩, BitVec.ofInt_natCast, BitVec.ofNat_toNat, BitVec.setWidth_eq]

/-- The encoder accepts exactly when both of its words are accepted (40_datapath.md R157). -/
theorem encEnv_eq_some_iff (ties : RoundTies) (h t : Word) (hw tw : BitVec 16) :
    encEnv ties h t = some (hw, tw) ↔
      envWord ties (envScaledHum h) = some hw ∧ envWord ties (envScaledTemp t) = some tw := by
  unfold encEnv
  cases envWord ties (envScaledHum h) <;> cases envWord ties (envScaledTemp t) <;> simp

/-- Settles O52: each word by `envWord_eq_some_iff`; the block's bytes as numbers. -/
theorem envEncoderAcceptsExactlyTheWordRange : Obligations.EnvEncoderAcceptsExactlyTheWordRange := by
  unfold Obligations.EnvEncoderAcceptsExactlyTheWordRange
  intro ties h t hw tw
  constructor
  · rw [encEnv_eq_some_iff, envWord_eq_some_iff, envWord_eq_some_iff]
    rfl
  · have hhigh (v : BitVec 16) : v.toNat / 256 % 256 = v.toNat / 256 := by
      have := v.isLt
      omega
    rw [envBytes_eq_ofNat]
    simp [hhigh]

/-! ### The raw-pressure gate -/

/-- A calibrated sample with its burst staged commits (42_climate_commands.md R209). -/
theorem climSampleWith_complete (C : Comp) {s : State} (hv : s.climate.calValid = true) (hs : 1 ≤ s.seq.step) :
    climSampleWith C s = complete .ok (climSampleEffects C s) s := by
  have hpre : climSamplePrecheck s = .ok := if_pos hv
  have hnext : (climSampleSchedule s.climateAddr)[s.seq.step]? = none := List.getElem?_eq_none hs
  rw [climSampleWith, hpre, advance_complete hnext]

/-- A raw pressure of 0x80000 or more skips the pressure (40_datapath.md R150). -/
theorem samplePressure_of_le (C : Comp) {raw : RawSample} (h : 0x80000 ≤ raw.adcP.toNat) (fine : Word) (c : PressCoeffs) :
    samplePressure C raw fine c = none := by
  have hgate : pressureOK raw.adcP = false := decide_eq_false h.not_gt
  rw [samplePressure, hgate]
  rfl

/-- The events of the humidity path are not those of the pressure path (60_exceptions.md R306). -/
theorem HumEvent.bit_getLsbD_of_lt_two (e : HumEvent) {k : Nat} (hk : k < 2) : e.bit.getLsbD k = false := by
  revert k
  cases e <;> decide

/-- What the commit of a sample holds then: the old pressure, P_SKIP and a humidity event (60_exceptions.md R311). -/
theorem climSampleEffects_of_le (C : Comp) {s : State} (h : 0x80000 ≤ (unpackRaw s.seq.buf).adcP.toNat) :
    (climSampleEffects C s).climate.pressHpa = s.climate.pressHpa ∧
    (climSampleEffects C s).climate.pValid = s.climate.pValid ∧
    ∃ e : HumEvent, (climSampleEffects C s).events = evPSkip ||| e.bit := by
  simp only [climSampleEffects, samplePressure_of_le C h, pressureEvent, true_and]
  exact ⟨_, rfl⟩

/-- Settles O34: the sample commits with the pressure skipped, and the humidity's event leaves bits 0 and 1 alone. -/
theorem pressureGateHoldsForAnyComp : Obligations.PressureGateHoldsForAnyComp := by
  unfold Obligations.PressureGateHoldsForAnyComp
  refine ⟨fun _ => rfl, fun C s hv hs hraw => ?_⟩
  obtain ⟨hpress, hvalid, e, hevents⟩ := climSampleEffects_of_le C hraw
  have hbit {k : Nat} (hk : k < 2) :
      (complete .ok (climSampleEffects C s) s).events.getLsbD k = (s.events.getLsbD k || evPSkip.getLsbD k) := by
    rw [complete_events, hevents, ErrCode.event]
    simp [e.bit_getLsbD_of_lt_two hk]
  rw [climSampleWith_complete C hv hs]
  refine ⟨hpress, hvalid, rfl, ?_, ?_, rfl, rfl⟩
  · exact (hbit (by norm_num)).trans (Bool.or_true _)
  · exact (hbit (by norm_num)).trans (Bool.or_false _)

end Sys2Proof.Machine
end

section
/-! The default humidity function with its guard and clamps (41_compensation.md R178, R179, 10_state.md R38), and the default
functions on the reference calibration and burst of 95_test_vectors.md (V8.1). -/

namespace Sys2Proof.Machine

/-! ### The clamp -/

/-- The bit pattern of a proper value gives it back: of an infinity and of a NaN as of a number (20_memory.md R74). -/
theorem Fl.Proper.ofBits_toBits {x : Fl} (h : x.Proper) : Fl.ofBits x.toBits = x := by
  cases x with
  | nan s fr => rw [Fl.toBits, Fl.ofBits_append, if_neg (by decide), if_pos (by decide), if_neg h]
  | inf s => rw [Fl.toBits, Fl.ofBits_append, if_neg (by decide), if_pos (by decide), if_pos rfl]
  | fin s m e => exact Fl.ofBits_toBits h

/-- The unclamped humidity is proper, whatever the operands: it is a product. -/
theorem humRaw_proper (adcH : BitVec 16) (h : Fl) (c : HumCoeffs) : (humRaw adcH h c).Proper := Fl.mul_proper _ _

/-- The pattern of +0.0 is 0. -/
@[simp] theorem Fl.toBits_zero : (Fl.zero false).toBits = 0 := by decide

/-- No value is below 0.0 and above 100.0. -/
theorem Fl.ofInt_hundred_lt_of_lt_ofInt_zero {x : Fl} (h : x.lt (Fl.ofInt 0) = true) : (Fl.ofInt 100).lt x = false := by
  have h100 : Fl.ofInt 100 = .fin false (100 * 2 ^ 46) (-46) := by decide
  have h0 : Fl.ofInt 0 = .fin false 0 (-1074) := by decide
  rw [h0] at h
  rw [h100]
  cases x with
  | nan s fr => rfl
  | inf s =>
    cases s with
    | false => exact absurd h (by decide)
    | true => rfl
  | fin s m e =>
    rw [Fl.lt_iff_toRat_lt, Fl.toRat_zero] at h
    rw [← Bool.not_eq_true, Fl.lt_iff_toRat_lt, not_lt]
    exact h.le.trans (by norm_num [Fl.toRat])

/-- The pattern of +0.0 is a humidity in range. -/
theorem humInRange_zero : HumInRange 0 := (humFinite_iff humFinite_zero.1).1 humFinite_zero

section
variable {x : Fl}

/-- Above 100.0 the clamp gives 100.0. -/
theorem humClamp_of_hundred_lt (h : (Fl.ofInt 100).lt x = true) : humClamp x = (0x4059000000000000, .clampHi) := by
  have hbits : (Fl.ofInt 100).toBits = 0x4059000000000000 := by decide
  rw [humClamp, if_pos h, hbits]

/-- Below 0.0 the clamp gives +0.0. -/
theorem humClamp_of_lt_zero (h : x.lt (Fl.ofInt 0) = true) : humClamp x = (0, .clampLo) := by
  rw [humClamp, if_neg (Bool.eq_false_iff.1 (Fl.ofInt_hundred_lt_of_lt_ofInt_zero h)), if_pos h, Fl.toBits_zero]

/-- Any other value, a NaN too, stays. -/
theorem humClamp_of_between (h100 : (Fl.ofInt 100).lt x = false) (h0 : x.lt (Fl.ofInt 0) = false) :
    humClamp x = (x.toBits, .none) := by
  rw [humClamp, if_neg (Bool.eq_false_iff.1 h100), if_neg (Bool.eq_false_iff.1 h0)]

/-- What the clamp gives is neither above 100.0 nor below 0.0. -/
theorem humClamp_inRange (hx : x.Proper) : HumInRange (humClamp x).1 := by
  cases h100 : (Fl.ofInt 100).lt x with
  | true =>
    rw [humClamp_of_hundred_lt h100]
    exact ⟨by decide, by decide +kernel⟩
  | false =>
    cases h0 : x.lt (Fl.ofInt 0) with
    | true =>
      rw [humClamp_of_lt_zero h0]
      exact humInRange_zero
    | false =>
      rw [humClamp_of_between h100 h0, HumInRange, hx.ofBits_toBits]
      exact ⟨h100, h0⟩

end

/-! ### The humidity -/

section
variable {adcH : BitVec 16} {fine : Word} {c : HumCoeffs}

/-- At the guard the humidity is +0.0. -/
theorem compH_of_isZero (h : (humOffset fine).isZero = true) : compH adcH fine c = (0, .divGuard) := by
  rw [compH, if_pos h, Fl.toBits_zero]

/-- Away from the guard it is the clamped raw value. -/
theorem compH_of_isZero_eq_false (h : (humOffset fine).isZero = false) :
    compH adcH fine c = humClamp (humRaw adcH (humOffset fine) c) := by
  rw [compH, if_neg (Bool.eq_false_iff.1 h)]

/-- The humidity is neither above 100.0 nor below 0.0, whatever the operands (10_state.md R38). -/
theorem compH_inRange : HumInRange (compH adcH fine c).1 := by
  cases h : (humOffset fine).isZero with
  | true =>
    rw [compH_of_isZero h]
    exact humInRange_zero
  | false =>
    rw [compH_of_isZero_eq_false h]
    exact humClamp_inRange (humRaw_proper _ _ _)

end

/-- Settles O53: the guard, then the three ways of the clamp; the unchanged value comes back from its pattern because it is
proper. -/
theorem humidityIsClamped : Obligations.HumidityIsClamped := by
  unfold Obligations.HumidityIsClamped
  intro adcH fine c
  refine ⟨compH_inRange, compH_of_isZero, fun hz h100 => ?_, fun hz h0 => ?_, fun hz h100 h0 => ?_⟩
  · exact (compH_of_isZero_eq_false hz).trans (humClamp_of_hundred_lt h100)
  · exact (compH_of_isZero_eq_false hz).trans (humClamp_of_lt_zero h0)
  · have hval := (compH_of_isZero_eq_false (adcH := adcH) (c := c) hz).trans (humClamp_of_between h100 h0)
    rw [hval]
    exact ⟨(humRaw_proper _ _ _).ofBits_toBits, rfl⟩

/-! ### The reference sample -/

/-- The calibration registers of the reference bytes, as 95_test_vectors.md lists them. -/
def referenceCal : CalibrationSet where
  temp := { t1 := 27504, t2 := 26435, t3 := -1000 }
  press := { p1 := 36477, p2 := -10685, p3 := 3024, p4 := 2855, p5 := 140, p6 := -7, p7 := 15500, p8 := -14600, p9 := 6000 }
  hum := { h1 := 75, h2 := 362, h3 := 0, h4 := 313, h5 := 50, h6 := 30 }

/-- The readings of the reference burst. -/
def referenceRaw : RawSample := { adcP := 415148, adcT := 519888, adcH := 28000 }

/-- The reference bytes unpack to those registers (40_datapath.md R133). -/
theorem unpackCal_reference :
    unpackCal .fieldWidth
      [0x70, 0x6B, 0x43, 0x67, 0x18, 0xFC, 0x7D, 0x8E, 0x43, 0xD6, 0xD0, 0x0B, 0x27, 0x0B, 0x8C, 0x00, 0xF9, 0xFF, 0x8C, 0x3C,
       0xF8, 0xC6, 0x70, 0x17, 0x4B, 0x6A, 0x01, 0x00, 0x13, 0x29, 0x03, 0x1E] = referenceCal := by decide

/-- The reference burst unpacks to those readings (40_datapath.md R140). -/
theorem unpackRaw_reference : unpackRaw [0x65, 0x5A, 0xC0, 0x7E, 0xED, 0x00, 0x6D, 0x60] = referenceRaw := by decide

/-- `fine` and the temperature of the reference sample. -/
theorem compT_reference :
    compT referenceRaw.adcT referenceCal.temp = (0x40FF5A6497936000, 0x4039151D460F8000) := by decide

/-- The pressure of the reference sample in hectopascals (41_compensation.md R177). -/
theorem compP_reference :
    (compP referenceRaw.adcP 0x40FF5A6497936000 referenceCal.press).map toHectopascal = some 0x408F7442E7504A97 := by
  decide +kernel

/-- The humidity of the reference sample, with no event. -/
theorem compH_reference :
    compH referenceRaw.adcH 0x40FF5A6497936000 referenceCal.hum = (0x4045EE012F8AFB86, .none) := by decide +kernel

/-- Settles O59: the bytes unpacked, then the three functions evaluated. -/
theorem referenceSampleEvaluates : Obligations.ReferenceSampleEvaluates := by
  have hfunctions : State.reset.params.comp.functions = Comp.default := rfl
  have hsext : State.reset.params.narrowSext = .fieldWidth := rfl
  simp only [Obligations.ReferenceSampleEvaluates, hfunctions, hsext, unpackCal_reference, unpackRaw_reference,
    Comp.default_temperature, Comp.default_pressure, Comp.default_humidity]
  exact ⟨compT_reference, compP_reference, compH_reference⟩

end Sys2Proof.Machine
end

section
/-! The climate commands (42_climate_commands.md): NOP, the commits of CLIM.INIT and CLIM.SAMPLE, and both commands from the host's
CMD write to their end. -/

namespace Sys2Proof.Machine

/-! ### Completions -/

/-- The whole state after a completion with ERR = OK (30_encoding.md R104). -/
theorem complete_ok_eq (w : Effects) (s : State) :
    complete .ok w s =
      { s with climate := w.climate, gas := w.gas, err := .ok, events := s.events ||| w.events, done := true,
               seq := { s.seq with phase := .idle } } := by
  rw [complete, ErrCode.event, show s.events ||| w.events ||| 0 = s.events ||| w.events from BitVec.or_zero]

/-- The same where no event is raised. -/
theorem complete_ok_eq_of_events {w : Effects} (h : w.events = 0) (s : State) :
    complete .ok w s =
      { s with climate := w.climate, gas := w.gas, err := .ok, done := true, seq := { s.seq with phase := .idle } } := by
  rw [complete_ok_eq, h, show s.events ||| 0 = s.events from BitVec.or_zero]

/-- A command whose precheck passes and whose schedule is finished completes (30_encoding.md R98). -/
theorem exec_complete {i : Instr} {s : State} (hp : precheckOf i s = .ok) (hn : nextTxnOf i s = none) :
    exec i s = .next (complete .ok (effectsOf i s) s) := by
  rw [exec_eq_advance, hp, advance_complete hn]

/-! ### NOP -/

/-- NOP is the only legal word with OPC 0x00 (42_climate_commands.md R200). -/
theorem encode_eq_zero_of_opc {i : Instr} (h : (encode i).toNat % 256 = 0) : encode i = 0 := by
  revert h
  cases i <;> decide

/-- Settles O31: NOP completes with the empty commit block; its word is 0, and no other command's OPC is 0x00. -/
theorem nopOnlyCompletes : Obligations.NopOnlyCompletes := by
  unfold Obligations.NopOnlyCompletes
  refine ⟨fun s => ?commit, by decide, fun w hopc hw => ?illegal, fun s hp => ?dropped⟩
  case commit =>
    rw [exec_complete rfl rfl, complete_ok_eq_of_events rfl]
    rfl
  case illegal =>
    rw [decode_error_iff]
    rintro ⟨i, hi⟩
    obtain rfl := (decode_eq_ok_iff w i).1 hi
    exact hw (encode_eq_zero_of_opc hopc)
  case dropped =>
    simp only [hostWrite, writeCmd, hp]
    rfl

/-! ### CLIM.INIT -/

/-- Settles O32: past the six transactions CLIM.INIT completes with its commit block. -/
theorem climInitCommitsCalibration : Obligations.ClimInitCommitsCalibration := by
  unfold Obligations.ClimInitCommitsCalibration
  intro s hs
  have hnext : nextTxnOf .climInit s = none := List.getElem?_eq_none (show (scheduleOf .climInit s).length ≤ _ from hs)
  rw [exec_complete rfl hnext, complete_ok_eq_of_events rfl]
  rfl

/-! ### CLIM.SAMPLE -/

/-- Below 0x80000 the pressure is the compensation's, or none where its divisor is zero (41_compensation.md R176, R177). -/
theorem samplePressure_of_lt (C : Comp) {raw : RawSample} (h : raw.adcP.toNat < 0x80000) (fine : Word) (c : PressCoeffs) :
    samplePressure C raw fine c = some ((C.pressure raw.adcP fine c).map toHectopascal) :=
  if_pos (decide_eq_true h)

/-- Settles O33: the sample commits, with the pressure kept, guarded or computed. -/
theorem climSampleCommitsSample : Obligations.ClimSampleCommitsSample := by
  unfold Obligations.ClimSampleCommitsSample
  intro s hv hs u raw C ft h hev
  have hexec : exec .climSample s = .next (complete .ok (climSampleEffects C s) s) :=
    congrArg _ (climSampleWith_complete C hv hs)
  refine ⟨fun hc => ?default, fun hp => ?skipped, fun hp hnone => ?guarded, fun p hp hsome => ?computed⟩
  case default =>
    rw [show C = Comp.default from congrArg CompChoice.functions hc]
    exact ⟨rfl, rfl, rfl⟩
  all_goals rw [hexec, complete_ok_eq]
  case skipped =>
    rw [climSampleEffects, samplePressure_of_le C hp]
    rfl
  case guarded =>
    rw [climSampleEffects, samplePressure_of_lt C hp, hnone]
    rfl
  case computed =>
    have hquiet (e : HumEvent) : pressureEvent (some (some (toHectopascal p))) ||| e.bit = e.bit := BitVec.zero_or
    rw [climSampleEffects, samplePressure_of_lt C hp, hsome]
    simp only [Option.map_some, hquiet]
    rfl

/-! ### A command from the host's CMD write to its end

What a running command leaves after transactions that all got an OK, and the run that does them one by one and then completes. -/

/-- `s` once its running command has made the transactions of `l`, each answered with OK and the bytes beside it. -/
def State.afterTxns (l : List (Transaction × List Byte)) (s : State) : State :=
  { s with
    seq := { s.seq with step := s.seq.step + l.length, buf := s.seq.buf ++ l.flatMap Prod.snd }
    env := { s.env with
      answers := s.env.answers.drop l.length
      draws := s.env.draws + l.length
      busLog := s.env.busLog ++ l.map fun x => { txn := x.1, resp := some (.ok x.2) } } }

/-- With none made. -/
@[simp] theorem State.afterTxns_nil (s : State) : s.afterTxns [] = s := by
  simp [State.afterTxns]

/-- The first of them, then the others. -/
theorem State.afterTxns_cons (x : Transaction × List Byte) (l : List (Transaction × List Byte)) (s : State) :
    s.afterTxns (x :: l) = (s.afterTxns [x]).afterTxns l := by
  simp [State.afterTxns, Nat.add_assoc, Nat.add_comm 1]

/-- Nobody but the sequencer moves in `s`, command `i` runs past its precheck, and its remaining transactions are those of `l`,
which the transport's script answers with OK and the bytes beside them, of the lengths asked for (30_encoding.md R98, 20_memory.md
R66). -/
structure RunsThrough (i : Instr) (l : List (Transaction × List Byte)) (s : State) : Prop where
  running  : s.seq.phase = .run
  word     : decode s.seq.cmd = .ok i
  alone    : s.env.turns = []
  precheck : precheckOf i s = .ok
  answers  : l.map (fun x => .ok x.2) <+: s.env.answers
  lengths  : ∀ x ∈ l, x.2.length = x.1.replyLen
  schedule : ∀ p, p <+: l → nextTxnOf i (s.afterTxns p) = (l.map Prod.fst)[p.length]?

/-- A run whose first step answers a next state. -/
theorem run_succ {s t : State} (h : step s = .next t) (k : Nat) :
    Host.Core.run Sys2Proof.core (k + 1) s = Host.Core.run Sys2Proof.core k t := by
  have hstep : Sys2Proof.core.step s = .next t := h
  simp only [Host.Core.run, hstep]

section
variable {i : Instr} {x : Transaction × List Byte} {l : List (Transaction × List Byte)} {s : State}

/-- Such a state's step is its command's. -/
theorem RunsThrough.step_eq_exec (h : RunsThrough i l s) : step s = exec i s := by
  have hview : s.sequencerView = some s := by rw [State.sequencerView, h.alone]
  rw [step_sequencer hview, runSequencer_run h.running h.word]

/-- The first transaction left is the next one due. -/
theorem RunsThrough.nextTxnOf_eq (h : RunsThrough i l s) : nextTxnOf i s = (l.map Prod.fst)[0]? := by
  have hnext := h.schedule [] List.nil_prefix
  rwa [State.afterTxns_nil] at hnext

/-- With a transaction left, it makes that transaction. -/
theorem RunsThrough.step_cons (h : RunsThrough i (x :: l) s) : step s = .next (s.afterTxns [x]) := by
  have hnext : nextTxnOf i s = some x.1 := h.nextTxnOf_eq
  obtain ⟨rest, hrest⟩ := h.answers
  have hanswer : s.answer x.1 = .ok x.2 := by
    rw [State.answer_scripted x.1 hrest.symm]
    exact if_pos (h.lengths x List.mem_cons_self)
  rw [h.step_eq_exec, exec_eq_advance, h.precheck, advance_transact hnext, transact_ok hanswer]
  simp [State.afterTxns, State.logBus, Environment.consume]

/-- The rest of the transactions is then due. -/
theorem RunsThrough.tail (h : RunsThrough i (x :: l) s) : RunsThrough i l (s.afterTxns [x]) where
  running := h.running
  word := h.word
  alone := h.alone
  precheck := (precheckOf_congr i rfl rfl rfl rfl rfl).trans h.precheck
  answers := by
    obtain ⟨rest, hrest⟩ := h.answers
    exact ⟨rest, by rw [State.afterTxns, ← hrest]; rfl⟩
  lengths y hy := h.lengths y (List.mem_cons_of_mem x hy)
  schedule p hp := by
    rw [← State.afterTxns_cons]
    exact h.schedule (x :: p) (List.cons_prefix_cons.mpr ⟨rfl, hp⟩)

end

/-- The run of the command: its transactions one by one, then its completion. -/
theorem RunsThrough.run_eq {i : Instr} {l : List (Transaction × List Byte)} {s : State} (h : RunsThrough i l s) :
    Host.Core.run Sys2Proof.core (l.length + 1) s =
      .next (complete .ok (effectsOf i (s.afterTxns l)) (s.afterTxns l)) := by
  induction l generalizing s with
  | nil =>
    rw [State.afterTxns_nil]
    exact run_succ (h.step_eq_exec.trans (exec_complete h.precheck h.nextTxnOf_eq)) 0
  | cons x l ih =>
    rw [List.length_cons, run_succ h.step_cons, State.afterTxns_cons x l s]
    exact ih h.tail

section
variable {i : Instr} {w : Word} {l : List (Transaction × List Byte)} {s : State}

/-- A CMD write as the only pending turn, while IDLE, issues its word (44_host_access.md R272). -/
theorem step_cmdWrite (hidle : s.seq.phase = .idle) (hturns : s.env.turns = [.wr 0x00 w]) :
    step s = .next (issue w s.nextTurn) := by
  have hview : s.sequencerView = none := by rw [State.sequencerView, hturns]
  rw [step_outside hview, outsideTurn, hturns]
  simp only [hostWrite, if_true, writeCmd, State.nextTurn_seq, hidle]

/-- The issued command runs through `l` when its precheck passes at issue and `l` is its schedule, whatever its transactions
have staged. -/
theorem runsThrough_issue {rest : List BusResponse} (hw : decode w = .ok i) (hturns : s.env.turns = [.wr 0x00 w])
    (hprecheck : precheckOf i (issue w s.nextTurn) = .ok) (hanswers : s.env.answers = l.map (fun x => .ok x.2) ++ rest)
    (hlengths : ∀ x ∈ l, x.2.length = x.1.replyLen)
    (hschedule : ∀ p, p <+: l → (scheduleOf i ((issue w s.nextTurn).afterTxns p))[p.length]? = (l.map Prod.fst)[p.length]?) :
    RunsThrough i l (issue w s.nextTurn) where
  running := rfl
  word := hw
  alone := congrArg List.tail hturns
  precheck := hprecheck
  answers := ⟨rest, hanswers.symm⟩
  lengths := hlengths
  schedule p hp := by
    rw [← hschedule p hp, nextTxnOf]
    exact congrArg _ (Nat.zero_add p.length)

/-- From the CMD write on: the issue, the transactions, the completion (30_encoding.md R98). -/
theorem run_cmdWrite (hidle : s.seq.phase = .idle) (hturns : s.env.turns = [.wr 0x00 w])
    (h : RunsThrough i l (issue w s.nextTurn)) :
    Host.Core.run Sys2Proof.core (l.length + 2) s =
      .next (complete .ok (effectsOf i ((issue w s.nextTurn).afterTxns l)) ((issue w s.nextTurn).afterTxns l)) := by
  rw [run_succ (step_cmdWrite hidle hturns), h.run_eq]

end

/-- The transactions of CLIM.INIT to device `ca`, with the bytes their responses carry (30_encoding.md R100). -/
def climInitTxns (ca : Byte) (c1 : List Byte) (b : Byte) (c2 : List Byte) : List (Transaction × List Byte) :=
  [(.wrByte ca 0xF2 0x01, []), (.wrByte ca 0xF4 0x57, []), (.wrByte ca 0xF5 0x10, []), (.rdBlock ca 0x88 24, c1),
   (.rdByte ca 0xA1, [b]), (.rdBlock ca 0xE1 7, c2)]

/-- Settles O35: both commands run through their schedules, and their commits are evaluated. -/
theorem climateCommandsRunToCompletion : Obligations.ClimateCommandsRunToCompletion := by
  unfold Obligations.ClimateCommandsRunToCompletion
  refine ⟨fun s c1 c2 b rest hidle hturns hc1 hc2 hanswers => ?init, fun s b rest hidle hturns hb hv hanswers => ?sample⟩
  case init =>
    have hthrough : RunsThrough .climInit (climInitTxns s.config.climateAddr c1 b c2) (issue 0x01 s.nextTurn) :=
      runsThrough_issue (by decide) hturns rfl hanswers (by simp [climInitTxns, Transaction.replyLen, hc1, hc2]) fun _ _ => rfl
    refine (run_cmdWrite hidle hturns hthrough).trans ?_
    rw [complete_ok_eq_of_events rfl]
    simp [State.afterTxns, climInitTxns, issue, hturns, hanswers, effectsOf, climInitEffects]
  case sample =>
    have hthrough : RunsThrough .climSample [(.rdBlock s.config.climateAddr 0xF7 8, b)] (issue 0x02 s.nextTurn) :=
      runsThrough_issue (by decide) hturns (if_pos hv) hanswers (by simp [Transaction.replyLen, hb]) fun _ _ => rfl
    refine (run_cmdWrite hidle hturns hthrough).trans ?_
    simp [State.afterTxns, issue, hturns, hanswers, effectsOf]

end Sys2Proof.Machine
end

section
/-! The commits of the gas commands (43_gas_commands.md R232 to R250): past its precheck and its last transaction each command
completes with its commit block. -/

namespace Sys2Proof.Machine

/-- Past the last transaction of its schedule a command has none due (30_encoding.md R98). -/
theorem nextTxnOf_eq_none {i : Instr} {s : State} (h : (scheduleOf i s).length ≤ s.seq.step) : nextTxnOf i s = none :=
  List.getElem?_eq_none h

/-! ### GAS.INIT and GAS.READY -/

/-- Settles O36: past the two writes GAS.INIT completes with its commit block. -/
theorem gasInitCommitsBooted : Obligations.GasInitCommitsBooted := by
  unfold Obligations.GasInitCommitsBooted
  intro s hs
  have hnext : nextTxnOf .gasInit s = none := nextTxnOf_eq_none hs
  rw [exec_complete rfl hnext, complete_ok_eq_of_events rfl]
  rfl

/-- In any state but UNINIT the gas precheck passes (30_encoding.md R99). -/
theorem gasPrecheck_of_ne {s : State} (h : s.gas.st ≠ .uninit) : gasPrecheck s = .ok := if_neg h

/-- Settles O37: past its read GAS.READY completes with its commit block. -/
theorem gasReadyCommitsDataReadyBit : Obligations.GasReadyCommitsDataReadyBit := by
  unfold Obligations.GasReadyCommitsDataReadyBit
  intro s sb hst hs hbuf
  have hpre : precheckOf .gasReady s = .ok := gasPrecheck_of_ne hst
  have hnext : nextTxnOf .gasReady s = none := nextTxnOf_eq_none hs
  rw [exec_complete hpre hnext, complete_ok_eq_of_events rfl, effectsOf, gasReadyEffects, hbuf]
  rfl

/-! ### Compensation -/

/-- The compensation command with the given operand source (30_encoding.md R92). -/
def EnvSource.command : EnvSource → Instr
  | .default => .gasComp
  | .operands => .gasCompOpnd
  | .climate => .gasCompClim

/-- Its precheck. -/
theorem EnvSource.precheckOf_command (src : EnvSource) (s : State) : precheckOf src.command s = compPrecheck src s := by
  cases src <;> rfl

/-- Its schedule. -/
theorem EnvSource.scheduleOf_command (src : EnvSource) (s : State) : scheduleOf src.command s = compSchedule src s := by
  cases src <;> rfl

/-- Its effects. -/
theorem EnvSource.effectsOf_command (src : EnvSource) (s : State) : effectsOf src.command s = compEffects src s := by
  cases src <;> rfl

section
variable {src : EnvSource} {s : State} {hw tw : BitVec 16}

/-- The precheck of a compensation command whose operands the encoder accepts (43_gas_commands.md R238). -/
theorem compPrecheck_of_compWords (henc : compWords src s = some (hw, tw)) (hst : s.gas.st ≠ .uninit)
    (hth : src = .climate → s.climate.thValid = true) : compPrecheck src s = .ok := by
  have hsample : ¬ (src = .climate ∧ s.climate.thValid = false) := fun ⟨hc, hv⟩ => by simp [hth hc] at hv
  rw [compPrecheck, if_neg hst, if_neg hsample, henc]
  rfl

/-- Its one transaction. -/
theorem compSchedule_of_compWords (henc : compWords src s = some (hw, tw)) :
    compSchedule src s = [.wrBlock s.gasAddr 0x05 4 (envBytes hw tw)] := compSchedule_of_encEnv henc

/-- What it commits (43_gas_commands.md R243). -/
theorem compEffects_of_compWords (henc : compWords src s = some (hw, tw)) :
    compEffects src s = { climate := s.climate, gas := { s.gas with humWord := hw, tempWord := tw }, events := 0 } := by
  rw [compEffects, henc]

/-- The completion of a compensation command (43_gas_commands.md R243). -/
theorem exec_compensation_commit (henc : compWords src s = some (hw, tw)) (hst : s.gas.st ≠ .uninit)
    (hth : src = .climate → s.climate.thValid = true) (hs : 1 ≤ s.seq.step) :
    exec src.command s = .next
      { s with gas := { s.gas with humWord := hw, tempWord := tw }, done := true, err := .ok,
               seq := { s.seq with phase := .idle } } := by
  have hpre : precheckOf src.command s = .ok := (src.precheckOf_command s).trans (compPrecheck_of_compWords henc hst hth)
  have hlen : (scheduleOf src.command s).length ≤ s.seq.step := by
    rwa [src.scheduleOf_command, compSchedule_of_compWords henc]
  rw [exec_complete hpre (nextTxnOf_eq_none hlen), src.effectsOf_command, compEffects_of_compWords henc,
    complete_ok_eq_of_events rfl]

end

/-- The default operands encode as 0x6400, 0x6400 under both tie rules (43_gas_commands.md R239). -/
theorem encEnv_default (ties : RoundTies) : encEnv ties 0x4049000000000000 0x4039000000000000 = some (0x6400, 0x6400) := by
  cases ties <;> decide

/-- Settles O38: the encoder evaluated, and what GAS.COMP does with its two words. -/
theorem defaultCompensationAlwaysEncodes : Obligations.DefaultCompensationAlwaysEncodes := by
  unfold Obligations.DefaultCompensationAlwaysEncodes
  have hwords (s : State) : compWords .default s = some (0x6400, 0x6400) := encEnv_default s.params.roundTies
  refine ⟨encEnv_default, fun s => ⟨?precheck, compSchedule_of_compWords (hwords s)⟩,
    fun s hst => exec_compensation_commit (hwords s) hst nofun⟩
  case precheck =>
    by_cases hst : s.gas.st = .uninit
    · rw [precheckOf, compPrecheck, if_pos hst]
      decide
    · rw [precheckOf, compPrecheck_of_compWords (hwords s) hst nofun]
      decide

/-- Settles O39: the completion of the two commands with operands of the host and of the climate unit. -/
theorem compensationCommitsEnvWords : Obligations.CompensationCommitsEnvWords := by
  unfold Obligations.CompensationCommitsEnvWords
  intro s hw tw hst hs
  exact ⟨fun henc => exec_compensation_commit (src := .operands) henc hst nofun hs,
    fun hth henc => exec_compensation_commit (src := .climate) henc hst (fun _ => hth) hs⟩

/-! ### Updates -/

section
variable {i : Instr} (hi : i = .gasUpdate ∨ i = .gasSample)
include hi

/-- The precheck of the two updating commands. -/
theorem precheckOf_update (s : State) : precheckOf i s = gasPrecheck s := by
  rcases hi with rfl | rfl <;> rfl

/-- Their schedule. -/
theorem scheduleOf_update (s : State) : scheduleOf i s = updateSchedule s.gasAddr s.seq.buf := by
  rcases hi with rfl | rfl <;> rfl

/-- Their effects. -/
theorem effectsOf_update (s : State) : effectsOf i s = updateEffects s := by
  rcases hi with rfl | rfl <;> rfl

/-- The completion of an update (43_gas_commands.md R244, R250). -/
theorem exec_update_complete {s : State} (hst : s.gas.st ≠ .uninit)
    (hs : (updateSchedule s.gasAddr s.seq.buf).length ≤ s.seq.step) :
    exec i s = .next (complete .ok (updateEffects s) s) := by
  have hnext : nextTxnOf i s = none := nextTxnOf_eq_none (by rwa [scheduleOf_update hi])
  rw [exec_complete ((precheckOf_update hi s).trans (gasPrecheck_of_ne hst)) hnext, effectsOf_update hi]

end

section
variable {sb : Byte}

/-- A status byte that says not ready ends the schedule (30_encoding.md R101). -/
theorem updateSchedule_of_notReady (ga : Byte) (h : sb.getLsbD 3 = false) (r : List Byte) :
    updateSchedule ga (sb :: r) = [.rdByte ga 0x00] := by
  rw [updateSchedule_eq]
  exact if_neg (Bool.eq_false_iff.1 h)

/-- One that says ready makes the result block due (30_encoding.md R101). -/
theorem updateSchedule_of_ready (ga : Byte) (h : sb.getLsbD 3 = true) (r : List Byte) :
    updateSchedule ga (sb :: r) = [.rdByte ga 0x00, .rdBlock ga 0x02 8] := by
  rw [updateSchedule_eq]
  exact if_pos h

/-- What an update commits on a status byte that says not ready (43_gas_commands.md R246). -/
theorem updateEffects_of_notReady {s : State} {r : List Byte} (hbuf : s.seq.buf = sb :: r) (h : sb.getLsbD 3 = false) :
    updateEffects s = noDataEffects s := by
  rw [updateEffects, hbuf]
  exact if_neg (Bool.eq_false_iff.1 h)

/-- And on one that says ready (43_gas_commands.md R248). -/
theorem updateEffects_of_ready {s : State} {r : List Byte} (hbuf : s.seq.buf = sb :: r) (h : sb.getLsbD 3 = true) :
    updateEffects s = dataEffects r s := by
  rw [updateEffects, hbuf]
  exact if_pos h

end

/-- Settles O40: past the status byte an update that is not ready completes with the no-data commit. -/
theorem updateWithoutDataKeepsReadings : Obligations.UpdateWithoutDataKeepsReadings := by
  unfold Obligations.UpdateWithoutDataKeepsReadings
  intro s sb hst hs hbuf hsb t
  have hexec {i : Instr} (hi : i = .gasUpdate ∨ i = .gasSample) : exec i s = .next t := by
    rw [exec_update_complete hi hst (by rwa [hbuf, updateSchedule_of_notReady _ hsb]), updateEffects_of_notReady hbuf hsb,
      complete_ok_eq]
    rfl
  exact ⟨hexec (.inl rfl), hexec (.inr rfl)⟩

/-- The eCO2 range as numbers (40_datapath.md R151). -/
theorem eco2OK_be16 (x y : Byte) :
    eco2OK (be16 x y) = true ↔ 400 < 256 * x.toNat + y.toNat ∧ 256 * x.toNat + y.toNat < 8192 := by
  rw [eco2OK, be16_toNat, Bool.and_eq_true, decide_eq_true_iff, decide_eq_true_iff]

/-- The TVOC range as numbers (40_datapath.md R152). -/
theorem tvocOK_be16 (x y : Byte) :
    tvocOK (be16 x y) = true ↔ 0 < 256 * x.toNat + y.toNat ∧ 256 * x.toNat + y.toNat < 1187 := by
  rw [tvocOK, be16_toNat, Bool.and_eq_true, decide_eq_true_iff, decide_eq_true_iff]

/-- A judged reading is the new value with its valid bit, or what was there (43_gas_commands.md R248). -/
theorem judged_reading {ok : Bool} {P : Prop} (hok : ok = true ↔ P) (new old : BitVec 16) (valid : Bool) :
    (P → (if ok then new else old).toNat = new.toNat ∧ (if ok then true else valid) = true) ∧
    (¬P → (if ok then new else old) = old ∧ (if ok then true else valid) = valid) := by
  rw [← hok]
  cases ok <;> simp

/-- The bits of the events of an update with data: ECO2_REJECT is bit 5 and TVOC_REJECT bit 6 (10_state.md R24). -/
theorem dataEffects_events_getLsbD (r : List Byte) (s : State) (k : Nat) :
    (dataEffects r s).events.getLsbD k = true ↔
      (k = 5 ∧ ¬ eco2OK (be16 (byteAt r 0) (byteAt r 1)) = true) ∨
      (k = 6 ∧ ¬ tvocOK (be16 (byteAt r 2) (byteAt r 3)) = true) := by
  have hreject (ok : Bool) (j : Nat) (hj : j < 11) :
      (if ok then 0 else BitVec.twoPow 11 j).getLsbD k = true ↔ k = j ∧ ¬ ok = true := by
    cases ok <;> simp [BitVec.getLsbD_twoPow, hj, eq_comm]
  rw [← hreject _ 5 (by decide), ← hreject _ 6 (by decide), ← Bool.or_eq_true, ← BitVec.getLsbD_or]
  rfl

/-- Settles O41: past the result block an update completes with its commit block, which judges each reading by itself. -/
theorem updateWithDataJudgesEachReading : Obligations.UpdateWithDataJudgesEachReading := by
  unfold Obligations.UpdateWithDataJudgesEachReading
  intro s sb r0 r1 r2 r3 r4 r5 r6 r7 hst hs hbuf hsb eco2 tvoc eOk tOk
  let r := [r0, r1, r2, r3, r4, r5, r6, r7]
  have hexec {i : Instr} (hi : i = .gasUpdate ∨ i = .gasSample) : exec i s = .next (complete .ok (dataEffects r s) s) := by
    rw [exec_update_complete hi hst (by rwa [hbuf, updateSchedule_of_ready _ hsb]), updateEffects_of_ready hbuf hsb]
  have heco2 : eco2OK (be16 r0 r1) = true ↔ eOk := eco2OK_be16 r0 r1
  have htvoc : tvocOK (be16 r2 r3) = true ↔ tOk := tvocOK_be16 r2 r3
  obtain ⟨heIn, heOut⟩ := judged_reading heco2 (be16 r0 r1) s.gas.eco2 s.gas.eco2Valid
  obtain ⟨htIn, htOut⟩ := judged_reading htvoc (be16 r2 r3) s.gas.tvoc s.gas.tvocValid
  rw [be16_toNat] at heIn htIn
  have hbits (k : Nat) : (complete .ok (dataEffects r s) s).events.getLsbD k = true ↔
      s.events.getLsbD k = true ∨ (k = 5 ∧ ¬eOk) ∨ (k = 6 ∧ ¬tOk) := by
    rw [complete_ok_eq, BitVec.getLsbD_or, Bool.or_eq_true, dataEffects_events_getLsbD, ← heco2, ← htvoc]
    rfl
  refine ⟨complete .ok (dataEffects r s) s, hexec (.inl rfl), hexec (.inr rfl), rfl, rfl, rfl, heIn, heOut, htIn, htOut,
    rfl, rfl, rfl, ?_, ?_, fun k h5 h6 => ?_, rfl⟩
  · rw [hbits 5]
    simp
  · rw [hbits 6]
    simp
  · rw [Bool.eq_iff_iff, hbits]
    simp [h5, h6]

end Sys2Proof.Machine
end

section
/-! The independence of the two units (43_gas_commands.md R257) and the moves of GAS_ST (R255). -/

namespace Sys2Proof.Machine

/-! ### The other unit -/

/-- A climate command commits the gas unit as it is. -/
theorem effectsOf_gas_of_climate {i : Instr} (h : isClimateCommand i = true) (s : State) : (effectsOf i s).gas = s.gas := by
  cases i
  case climInit => rfl
  case climSample => rfl
  all_goals cases h

/-- Any other command commits the climate unit as it is. -/
theorem effectsOf_climate_of_not_climate {i : Instr} (h : isClimateCommand i = false) (s : State) :
    (effectsOf i s).climate = s.climate := by
  cases i
  case climInit => cases h
  case climSample => cases h
  case gasUpdate => exact updateEffects_climate s
  case gasSample => exact updateEffects_climate s
  all_goals rfl

/-- The state with both units replaced as `f` and `g` say. -/
def State.mapUnits (f : ClimateUnit → ClimateUnit) (g : GasUnit → GasUnit) (s : State) : State :=
  { s with climate := f s.climate, gas := g s.gas }

/-- The effects with both units replaced so. -/
def Effects.mapUnits (f : ClimateUnit → ClimateUnit) (g : GasUnit → GasUnit) (w : Effects) : Effects :=
  { w with climate := f w.climate, gas := g w.gas }

section
variable (f : ClimateUnit → ClimateUnit) (g : GasUnit → GasUnit)

/-- One template step under replaced units, with the same precheck and transaction and the effects replaced likewise. -/
theorem advance_mapUnits (pre : ErrCode) (next : Option Transaction) (eff : Effects) (s : State) :
    advance pre next (eff.mapUnits f g) (s.mapUnits f g) = (advance pre next eff s).mapUnits f g := by
  rcases advance_cases pre next eff s with ⟨hp, e⟩ | ⟨rfl, hn, e⟩ | ⟨x, rfl, hn, ha, e⟩ | ⟨x, b, rfl, hn, ha, -, e⟩ <;> rw [e]
  · exact advance_error hp
  · exact advance_complete hn
  · exact (advance_transact hn).trans (transact_fail ha)
  · exact (advance_transact hn).trans (transact_ok ha)

variable {f g}

/-- A command whose template reads nothing of what is replaced makes the same step (30_encoding.md R98). -/
theorem exec_mapUnits {i : Instr} {s t : State} (hpre : precheckOf i (s.mapUnits f g) = precheckOf i s)
    (hnext : nextTxnOf i (s.mapUnits f g) = nextTxnOf i s)
    (heff : effectsOf i (s.mapUnits f g) = (effectsOf i s).mapUnits f g) (h : exec i s = .next t) :
    exec i (s.mapUnits f g) = .next (t.mapUnits f g) := by
  rw [exec_eq_advance] at h ⊢
  cases h
  rw [hpre, hnext, heff, advance_mapUnits]

/-- An update reads nothing of the climate unit. -/
theorem updateEffects_mapUnits (s : State) : updateEffects (s.mapUnits f id) = (updateEffects s).mapUnits f id := by
  have hbuf : (s.mapUnits f id).seq.buf = s.seq.buf := rfl
  unfold updateEffects
  rw [hbuf]
  split <;> rfl

section
variable {src : EnvSource} {s : State} (h : envOperands src (s.mapUnits f id) = envOperands src s)
include h

/-- A compensation command whose operands stay encodes the same words. -/
theorem compWords_mapUnits : compWords src (s.mapUnits f id) = compWords src s := by
  rw [compWords, h]
  rfl

/-- It makes the same step, if TH_VALID stays where it is read. -/
theorem exec_compensation_mapUnits {t : State} (hth : src = .climate → (f s.climate).thValid = s.climate.thValid)
    (hs : exec src.command s = .next t) : exec src.command (s.mapUnits f id) = .next (t.mapUnits f id) := by
  have hwords := compWords_mapUnits h
  have hgas : (s.mapUnits f id).gas = s.gas := rfl
  have hsample : (src = .climate ∧ (s.mapUnits f id).climate.thValid = false) ↔
      (src = .climate ∧ s.climate.thValid = false) := and_congr_right fun hc => by rw [← hth hc]; rfl
  refine exec_mapUnits ?_ ?_ ?_ hs
  · rw [src.precheckOf_command, src.precheckOf_command, compPrecheck, compPrecheck, hgas, if_congr hsample rfl rfl, hwords]
  · rw [nextTxnOf, nextTxnOf, src.scheduleOf_command, src.scheduleOf_command, compSchedule, compSchedule, hwords]
    rfl
  · rw [src.effectsOf_command, src.effectsOf_command, compEffects, compEffects, hwords]
    cases compWords src s <;> rfl

end

end

/-- Settles O29: what each command commits of the other unit, and its template on a state with that unit replaced. -/
theorem unitsAreIndependent : Obligations.UnitsAreIndependent := by
  unfold Obligations.UnitsAreIndependent
  refine ⟨fun i s t h => ⟨fun hi => ?_, fun hi => ?_, ?_⟩, fun i s t g hi h => ?gas, fun i s t u hi hne h => ?climate,
    fun s t u hh ht hth => ?sample⟩
  · exact exec_units h (P := fun _ g => g = s.gas) rfl (effectsOf_gas_of_climate hi s)
  · exact exec_units h (P := fun u _ => u = s.climate) rfl (effectsOf_climate_of_not_climate hi s)
  · rintro rfl
    exact exec_units h (P := fun _ g => g = s.gas) rfl rfl
  case gas =>
    show exec i (s.mapUnits id fun _ => g) = .next (t.mapUnits id fun _ => g)
    cases i
    case climInit => exact exec_mapUnits rfl rfl rfl h
    case climSample => exact exec_mapUnits rfl rfl rfl h
    all_goals cases hi
  case climate =>
    show exec i (s.mapUnits (fun _ => u) id) = .next (t.mapUnits (fun _ => u) id)
    cases i
    case climInit => cases hi
    case climSample => cases hi
    case gasCompClim => exact absurd rfl hne
    case gasComp => exact exec_compensation_mapUnits (src := .default) rfl nofun h
    case gasCompOpnd => exact exec_compensation_mapUnits (src := .operands) rfl nofun h
    case gasUpdate => exact exec_mapUnits rfl rfl (updateEffects_mapUnits s) h
    case gasSample => exact exec_mapUnits rfl rfl (updateEffects_mapUnits s) h
    all_goals exact exec_mapUnits rfl rfl rfl h
  case sample =>
    exact exec_compensation_mapUnits (src := .climate) (f := fun _ => u) (Prod.ext hh ht) fun _ => hth

/-! ### GAS_ST -/

/-- Where the OK completion of a command leaves GAS_ST (43_gas_commands.md R255). -/
def gasStAfter (i : Instr) (s : State) : GasState :=
  match i with
  | .gasInit => .booted
  | .gasUpdate | .gasSample => if dataReady (byteAt s.seq.buf 0) then .dataReady else .dataNotReady
  | .nop | .climInit | .climSample | .gasReady | .gasComp | .gasCompOpnd | .gasCompClim => s.gas.st

/-- It is the GAS_ST the command commits. -/
theorem effectsOf_gas_st (i : Instr) (s : State) : (effectsOf i s).gas.st = gasStAfter i s := by
  have hupdate : (updateEffects s).gas.st = if dataReady (byteAt s.seq.buf 0) then .dataReady else .dataNotReady := by
    unfold updateEffects
    split <;> rfl
  have hcomp (src : EnvSource) : (compEffects src s).gas.st = s.gas.st := by rw [compEffects_gas]
  cases i
  case gasUpdate => exact hupdate
  case gasSample => exact hupdate
  case gasComp => exact hcomp .default
  case gasCompOpnd => exact hcomp .operands
  case gasCompClim => exact hcomp .climate
  all_goals rfl

/-- Only GAS.INIT and the updates move it. -/
theorem gasStAfter_cases (i : Instr) (s : State) :
    i = .gasInit ∨ (i = .gasUpdate ∨ i = .gasSample) ∨ gasStAfter i s = s.gas.st := by
  cases i
  case gasInit => exact .inl rfl
  case gasUpdate => exact .inr (.inl (.inl rfl))
  case gasSample => exact .inr (.inl (.inr rfl))
  all_goals exact .inr (.inr rfl)

/-- After the reset input GAS_ST is UNINIT (70_reset_and_hazards.md R340). -/
theorem step_reset_gas {s t : State} (h : step s = .next t) (hr : s.resetNext = true) : t.gas = GasUnit.reset := by
  unfold State.resetNext at hr
  split at hr
  · rename_i f rest hturns
    have hview : s.sequencerView = none := by rw [State.sequencerView, hturns]
    rw [step_outside hview, outsideTurn, hturns] at h
    cases h
    show (resetInput f s.nextTurn).gas = _
    rcases resetInput_cases f s.nextTurn with ⟨x, -, -, e⟩ | ⟨-, e⟩ <;> rw [e] <;> rfl
  · cases hr

/-- A step of a running command to IDLE with ERR = OK is its completion (30_encoding.md R98). -/
theorem exec_ok_completion {i : Instr} {s t : State} (h : exec i s = .next t) (hrun : s.seq.phase = .run)
    (hidle : t.seq.phase = .idle) (hok : t.err = .ok) : t = complete .ok (effectsOf i s) s := by
  rcases exec_cases i s with ⟨hp, e⟩ | ⟨-, -, e⟩ | ⟨x, -, -, -, e⟩ | ⟨x, b, -, -, -, -, e⟩ <;> rw [h] at e <;> cases e
  · exact absurd hok hp
  · rfl
  · cases hok
  · exact absurd (hrun.symm.trans hidle) (by decide)

/-- The same of any step but the reset input: while RUN only the running command's own step can end it. -/
theorem step_ok_completion {s t : State} {i : Instr} (h : step s = .next t) (hr : s.resetNext = false)
    (hrun : s.seq.phase = .run) (hd : decode s.seq.cmd = .ok i) (hidle : t.seq.phase = .idle) (hok : t.err = .ok) :
    ∃ u, s.sequencerView = some u ∧ t = complete .ok (effectsOf i u) u := by
  have hne {q : Sequencer} (hq : q.phase = s.seq.phase) : q.phase ≠ .idle := by rw [hq, hrun]; decide
  rcases step_cases s with ⟨u, hv, hp, e⟩ | ⟨u, j, hv, hp, hj, e⟩ | ⟨u, r, hv, hp, hj, e⟩ | ⟨k, rest, -, e⟩ |
    ⟨k, v, rest, -, e⟩ | ⟨f, rest, ht, e⟩ | ⟨rest, -, hp, e⟩ <;> rw [h] at e
  · rw [State.sequencerView_eq hv] at hp
    exact absurd hp (hne rfl)
  · have hi : j = i := by
      rw [State.sequencerView_eq hv, hd] at hj
      exact (Except.ok.inj hj).symm
    subst hi
    exact ⟨u, hv, exec_ok_completion e.symm hp hidle hok⟩
  · cases e
    cases hok
  · cases e
    exact absurd hidle (hne rfl)
  · cases e
    rcases hostWrite_cases k v s.nextTurn with ⟨_, hp, _⟩ | ⟨_, _, e⟩ | ⟨_, e⟩ | ⟨_, e⟩ | ⟨_, e⟩ | ⟨_, e⟩ | ⟨_, e⟩
    case inl => exact absurd hp (hne rfl)
    all_goals
      rw [e] at hidle
      exact absurd hidle (hne rfl)
  · exact absurd ht (turns_ne_reset hr f rest)
  · exact absurd hp (hne rfl)

/-- In UNINIT every gas command but GAS.INIT fails its precheck with NOT_INIT (30_encoding.md R99). -/
theorem precheckOf_uninit {s : State} (h : s.gas.st = .uninit) :
    ∀ i ∈ [Instr.gasReady, .gasComp, .gasCompOpnd, .gasCompClim, .gasUpdate, .gasSample], precheckOf i s = .notInit := by
  have hgas : gasPrecheck s = .notInit := if_pos h
  have hcomp (src : EnvSource) : compPrecheck src s = .notInit := if_pos h
  simp [precheckOf, hgas, hcomp]

/-- Settles O42: a completion leaves GAS_ST at `gasStAfter`, and no other step but the reset input moves it. -/
theorem gasStateMovesOnlyAsTabled : Obligations.GasStateMovesOnlyAsTabled := by
  unfold Obligations.GasStateMovesOnlyAsTabled
  refine ⟨fun s t h hr => ?reset, fun s t h hr hne => ?moves, fun s t i h hr hrun hd hidle hok => ?completion,
    fun i s t h hst hi => ?uninit⟩
  case reset => rw [step_reset_gas h hr, GasUnit.reset]
  case moves =>
    rcases step_commit_cases h (turns_ne_reset hr) with ⟨-, hg⟩ | ⟨i, u, hv, hrun, hd, hpre, -, rfl⟩
    · exact absurd (congrArg GasUnit.st hg) hne
    · obtain ⟨hbuf, hgas⟩ : u.seq.buf = s.seq.buf ∧ u.gas = s.gas := by
        rw [State.sequencerView_eq hv]
        exact ⟨rfl, rfl⟩
      rw [complete_gas, effectsOf_gas_st] at hne ⊢
      refine ⟨hrun, rfl, rfl, i, hd, ?_⟩
      rcases gasStAfter_cases i u with rfl | hi | hsame
      · exact .inl ⟨rfl, rfl⟩
      · rw [precheckOf_update hi] at hpre
        refine .inr ⟨hi, hgas ▸ gasPrecheck_ok hpre, ?_⟩
        rw [← hbuf]
        rcases hi with rfl | rfl <;> rfl
      · exact absurd (hsame.trans (congrArg GasUnit.st hgas)) hne
  case completion =>
    obtain ⟨u, hv, rfl⟩ := step_ok_completion h hr hrun hd hidle hok
    rw [complete_gas, effectsOf_gas_st, State.sequencerView_eq hv]
    cases i <;> rfl
  case uninit =>
    have hpre := precheckOf_uninit hst i hi
    rw [exec_eq_advance, hpre, advance_error (by decide)] at h
    cases h
    exact ⟨rfl, hst⟩

end Sys2Proof.Machine
end

section
/-! The gas commands from the host's CMD write to their end (43_gas_commands.md R230 to R250, 30_encoding.md R98). -/

namespace Sys2Proof.Machine

/-! ### GAS.INIT and GAS.READY -/

/-- Settles O43: both commands run through their schedules, and their commits are evaluated. -/
theorem gasInitAndReadyRunToCompletion : Obligations.GasInitAndReadyRunToCompletion := by
  unfold Obligations.GasInitAndReadyRunToCompletion
  refine ⟨fun s rest hidle hturns hanswers => ?init, fun s sb rest hidle hst hturns hanswers => ?ready⟩
  case init =>
    have hthrough : RunsThrough .gasInit
        [(.wrBlock s.config.gasAddr 0xF4 0 #v[], []), (.wrByte s.config.gasAddr 0x01 0x10, [])] (issue 0x10 s.nextTurn) :=
      runsThrough_issue (by decide) hturns rfl hanswers (by simp [Transaction.replyLen]) fun _ _ => rfl
    refine (run_cmdWrite hidle hturns hthrough).trans ?_
    rw [complete_ok_eq_of_events rfl]
    simp [State.afterTxns, issue, hturns, hanswers, effectsOf, gasInitEffects, fixedDriveMode, DriveMode.code]
  case ready =>
    have hthrough : RunsThrough .gasReady [(.rdByte s.config.gasAddr 0x00, [sb])] (issue 0x11 s.nextTurn) :=
      runsThrough_issue (by decide) hturns (gasPrecheck_of_ne hst) hanswers (by simp [Transaction.replyLen]) fun _ _ => rfl
    refine (run_cmdWrite hidle hturns hthrough).trans ?_
    rw [complete_ok_eq_of_events rfl]
    simp [State.afterTxns, issue, hturns, hanswers, effectsOf, gasReadyEffects, byteAt, dataReady]

/-! ### Compensation -/

/-- A compensation command from the CMD write on: one 4-byte write, then ENV_WORDS (43_gas_commands.md R238, R243). -/
theorem run_compensation {src : EnvSource} {s : State} {hw tw : BitVec 16} {rest : List BusResponse}
    (hidle : s.seq.phase = .idle) (hst : s.gas.st ≠ .uninit) (hth : src = .climate → s.climate.thValid = true)
    (henc : compWords src (issue (encode src.command) s.nextTurn) = some (hw, tw))
    (hturns : s.env.turns = [.wr 0x00 (encode src.command)]) (hanswers : s.env.answers = .ok [] :: rest) :
    Host.Core.run Sys2Proof.core 3 s = .next
      { s with
        cmd := encode src.command
        done := true
        err := .ok
        gas := { s.gas with humWord := hw, tempWord := tw }
        seq := { phase := .idle, cmd := encode src.command, cfg := s.config, envH := s.envHIn, envT := s.envTIn, step := 1,
                 buf := [] }
        env := { s.env with
          turns := []
          answers := rest
          draws := s.env.draws + 1
          busLog := s.env.busLog ++ [{ txn := .wrBlock s.config.gasAddr 0x05 4 (envBytes hw tw), resp := some (.ok []) }] } } := by
  have hafter (p : List (Transaction × List Byte)) :
      compWords src ((issue (encode src.command) s.nextTurn).afterTxns p) = some (hw, tw) := by
    rw [← henc]
    cases src <;> rfl
  have hpre : precheckOf src.command (issue (encode src.command) s.nextTurn) = .ok := by
    rw [src.precheckOf_command]
    exact compPrecheck_of_compWords henc hst hth
  have hthrough : RunsThrough src.command [(.wrBlock s.config.gasAddr 0x05 4 (envBytes hw tw), [])]
      (issue (encode src.command) s.nextTurn) := by
    refine runsThrough_issue ((decode_eq_ok_iff _ _).2 rfl) hturns hpre hanswers (by simp [Transaction.replyLen]) fun p _ => ?_
    rw [src.scheduleOf_command, compSchedule_of_compWords (hafter p)]
    rfl
  refine (run_cmdWrite hidle hturns hthrough).trans ?_
  rw [src.effectsOf_command, compEffects_of_compWords (hafter _), complete_ok_eq_of_events rfl]
  simp [State.afterTxns, issue, hturns, hanswers]

/-- Settles O44: the run of each of the three commands, the block's bytes as numbers. -/
theorem compensationRunsToCompletion : Obligations.CompensationRunsToCompletion := by
  unfold Obligations.CompensationRunsToCompletion
  intro s i h t hw tw rest hmem hidle hst hth henc hturns hanswers
  rw [← envBytes_eq_ofNat]
  simp only [List.mem_cons, List.not_mem_nil, or_false, Prod.mk.injEq] at hmem
  obtain ⟨rfl, rfl, rfl⟩ | ⟨rfl, rfl, rfl⟩ | ⟨rfl, rfl, rfl⟩ := hmem
  · exact run_compensation (src := .default) hidle hst nofun henc hturns hanswers
  · exact run_compensation (src := .operands) hidle hst nofun henc hturns hanswers
  · exact run_compensation (src := .climate) hidle hst (fun _ => hth rfl) henc hturns hanswers

/-! ### Updates -/

/-- An issued update runs through `l` where its schedule does, whatever part of `l` is staged. -/
theorem runsThrough_update {i : Instr} {s : State} {l : List (Transaction × List Byte)} {rest : List BusResponse}
    (hi : i = .gasUpdate ∨ i = .gasSample) (hst : s.gas.st ≠ .uninit)
    (hturns : s.env.turns = [.wr 0x00 (encode i)]) (hanswers : s.env.answers = l.map (fun x => .ok x.2) ++ rest)
    (hlengths : ∀ x ∈ l, x.2.length = x.1.replyLen)
    (hschedule : ∀ p, p <+: l →
      (updateSchedule s.config.gasAddr (p.flatMap Prod.snd))[p.length]? = (l.map Prod.fst)[p.length]?) :
    RunsThrough i l (issue (encode i) s.nextTurn) := by
  have hpre : precheckOf i (issue (encode i) s.nextTurn) = .ok :=
    (precheckOf_update hi _).trans (gasPrecheck_of_ne hst)
  refine runsThrough_issue ((decode_eq_ok_iff _ _).2 rfl) hturns hpre hanswers hlengths fun p hp => ?_
  rw [scheduleOf_update hi, ← hschedule p hp]
  rfl

/-- Settles O45: an update runs through the status read alone, or through both reads; its commit is the one of O40 or O41. -/
theorem updatesRunToCompletion : Obligations.UpdatesRunToCompletion := by
  unfold Obligations.UpdatesRunToCompletion
  intro s i sb rest hi hidle hst hturns
  refine ⟨fun hsb hanswers => ?notReady, fun r hsb hr hanswers => ?ready⟩
  case notReady =>
    have hthrough : RunsThrough i [(.rdByte s.config.gasAddr 0x00, [sb])] (issue (encode i) s.nextTurn) := by
      refine runsThrough_update hi hst hturns hanswers (by simp [Transaction.replyLen]) fun p hp => ?_
      simp only [List.prefix_cons_iff, List.prefix_nil] at hp
      obtain rfl | ⟨_, rfl, rfl⟩ := hp
      · rfl
      · exact congrArg (·[1]?) (updateSchedule_of_notReady _ hsb [])
    refine (run_cmdWrite hidle hturns hthrough).trans ?_
    rw [effectsOf_update hi, updateEffects_of_notReady (r := []) rfl hsb, complete_ok_eq]
    simp [State.afterTxns, issue, hturns, hanswers, noDataEffects, evGasNoData]
  case ready =>
    have hthrough : RunsThrough i [(.rdByte s.config.gasAddr 0x00, [sb]), (.rdBlock s.config.gasAddr 0x02 8, r)]
        (issue (encode i) s.nextTurn) := by
      refine runsThrough_update hi hst hturns hanswers (by simp [Transaction.replyLen, hr]) fun p hp => ?_
      simp only [List.prefix_cons_iff, List.prefix_nil] at hp
      obtain rfl | ⟨_, rfl, rfl | ⟨_, rfl, rfl⟩⟩ := hp
      · rfl
      · exact congrArg (·[1]?) (updateSchedule_of_ready _ hsb [])
      · exact congrArg (·[2]?) (updateSchedule_of_ready _ hsb (r ++ []))
    refine ⟨_, run_cmdWrite hidle hturns hthrough, rfl, rfl, rfl, rfl, ?_⟩
    rw [effectsOf_update hi, updateEffects_of_ready (r := r ++ []) rfl hsb, List.append_nil, complete_ok_eq]
    exact ⟨rfl, rfl, rfl, congrArg (List.drop 2) hanswers, rfl⟩

end Sys2Proof.Machine
end

section
/-! Host access to the register file (44_host_access.md R271 to R277): the step of a host write and of a host read, what a
write does at each index, what a reserved index reads. -/

namespace Sys2Proof.Machine

/-! ### The host's turn -/

section
variable {s : State} {rest : List Turn}

/-- A turn used up: only the pending turns change. -/
theorem State.nextTurn_of_turns {a : Turn} (h : s.env.turns = a :: rest) :
    s.nextTurn = { s with env := { s.env with turns := rest } } := by
  rw [State.nextTurn, h, List.tail_cons]

/-- A host write is one step, BUSY or not (44_host_access.md R270). -/
theorem step_wr {i : BitVec 6} {v : Word} (h : s.env.turns = .wr i v :: rest) :
    step s = .next (hostWrite i v { s with env := { s.env with turns := rest } }) := by
  have hview : s.sequencerView = none := by rw [State.sequencerView, h]
  rw [step_outside hview, outsideTurn, h, State.nextTurn_of_turns h]

/-- A host read is one step, BUSY or not (44_host_access.md R270). -/
theorem step_rd {i : BitVec 6} (h : s.env.turns = .rd i :: rest) :
    step s = .next (hostRead i { s with env := { s.env with turns := rest } }) := by
  have hview : s.sequencerView = none := by rw [State.sequencerView, h]
  rw [step_outside hview, outsideTurn, h, State.nextTurn_of_turns h]

end

/-! ### A write at each index -/

section
variable {s : State}

/-- 44_host_access.md R272. -/
theorem hostWrite_cmd_of_idle (w : Word) (h : s.seq.phase = .idle) : hostWrite 0x00 w s = issue w s := by
  rw [hostWrite, if_pos rfl, writeCmd, h]

/-- 44_host_access.md R273. -/
theorem hostWrite_cmd_of_run (w : Word) (h : s.seq.phase = .run) :
    hostWrite 0x00 w s = { s with events := s.events ||| evOverrun } := by
  rw [hostWrite, if_pos rfl, writeCmd, h]

/-- 44_host_access.md R277. -/
theorem hostWrite_of_notMem {i : BitVec 6} (v : Word) (h : i ∉ ([0x00, 0x02, 0x03, 0x04, 0x05] : List (BitVec 6))) :
    hostWrite i v s = s := by
  simp only [List.mem_cons, List.not_mem_nil, or_false, not_or] at h
  obtain ⟨hcmd, hevents, hconfig, henvH, henvT⟩ := h
  rw [hostWrite, if_neg hcmd, if_neg hevents, if_neg hconfig, if_neg henvH, if_neg henvT]

/-- Each event bit after a write to EVENTS (44_host_access.md R276). -/
theorem hostWrite_events_getLsbD (v : Word) {k : Nat} (hk : k < 11) :
    (hostWrite 0x02 v s).events.getLsbD k = (s.events.getLsbD k && !v.getLsbD k) := by
  change (s.events &&& ~~~(v.extractLsb' 0 11)).getLsbD k = _
  simp [hk]

end

/-! ### Writes to CMD -/

/-- Settles O7: an idle CMD write is an issue, and STATUS shows the state after it by `statusShowsEachField`. -/
theorem cmdWriteWhileIdleIssues : Obligations.CmdWriteWhileIdleIssues := by
  unfold Obligations.CmdWriteWhileIdleIssues
  intro s w rest hturns hidle
  refine ⟨_, (step_wr hturns).trans (congrArg _ (hostWrite_cmd_of_idle w hidle)), rfl, rfl, ?_⟩
  obtain ⟨hbusy, hdone, -⟩ := statusShowsEachField (issue w { s with env := { s.env with turns := rest } })
  exact ⟨hbusy, hdone⟩

/-- Settles O8: a CMD write while RUN only sets OVERRUN. -/
theorem cmdWriteWhileBusyIsDropped : Obligations.CmdWriteWhileBusyIsDropped := by
  unfold Obligations.CmdWriteWhileBusyIsDropped
  intro s w rest hturns hrun
  exact (step_wr hturns).trans (congrArg _ (hostWrite_cmd_of_run w hrun))

/-! ### Writes to the other registers -/

/-- Settles O9: the bits a write leaves; a completion ORs its bits in, before the write or after it. -/
theorem eventsWriteClearsOnes : Obligations.EventsWriteClearsOnes := by
  unfold Obligations.EventsWriteClearsOnes
  refine ⟨fun s v rest hturns => ⟨_, step_wr hturns, fun k hk => hostWrite_events_getLsbD v hk, rfl⟩,
    fun s e w v k hk hv hset => ⟨?completionFirst, ?hostFirst⟩⟩
  case completionFirst => rw [hostWrite_events_getLsbD v hk, hv, Bool.not_true, Bool.and_false]
  case hostFirst => rw [complete_events, BitVec.or_assoc, BitVec.getLsbD_or, hset, Bool.or_true]

/-- The climate address of a written CONFIG (10_state.md R25). -/
theorem BusConfig.ofWord_climateAddr_toNat (v : Word) : (BusConfig.ofWord v).climateAddr.toNat = v.toNat % 256 := by
  simp [BusConfig.ofWord]

/-- The gas address of a written CONFIG (10_state.md R25). -/
theorem BusConfig.ofWord_gasAddr_toNat (v : Word) : (BusConfig.ofWord v).gasAddr.toNat = v.toNat / 256 % 256 := by
  simp [BusConfig.ofWord, Nat.shiftRight_eq_div_pow]

/-- A written CONFIG reads back its low 16 bits (44_host_access.md R274). -/
theorem BusConfig.ofWord_word_toNat (v : Word) : (BusConfig.ofWord v).word.toNat = v.toNat % 65536 := by
  rw [BusConfig.word_toNat, ofWord_climateAddr_toNat, ofWord_gasAddr_toNat]
  omega

/-- Settles O10: the write replaces CONFIG alone; the read and the next issue show its two addresses. -/
theorem configWriteTakesLowSixteenBits : Obligations.ConfigWriteTakesLowSixteenBits := by
  unfold Obligations.ConfigWriteTakesLowSixteenBits
  intro s v rest hturns
  exact ⟨_, step_wr hturns, rfl, BusConfig.ofWord_word_toNat v,
    fun _ => ⟨BusConfig.ofWord_climateAddr_toNat v, BusConfig.ofWord_gasAddr_toNat v⟩⟩

/-- Settles O11: both writes replace their register in the state with the turn used up. -/
theorem envInputWritesReplace : Obligations.EnvInputWritesReplace := by
  unfold Obligations.EnvInputWritesReplace
  exact fun s v rest => ⟨step_wr, step_wr⟩

/-- Settles O12: an index that none of the five tests of `hostWrite` names. -/
theorem readOnlyAndReservedWritesIgnored : Obligations.ReadOnlyAndReservedWritesIgnored := by
  unfold Obligations.ReadOnlyAndReservedWritesIgnored
  intro s i v rest hturns hi
  exact (step_wr hturns).trans (congrArg _ (hostWrite_of_notMem v hi))

/-! ### Reads -/

/-- A reserved index holds 0: a gap in the register list, or an index past its end (10_state.md R21). -/
theorem readReg_reserved {i : BitVec 6} (s : State) (h : i.toNat ∈ [0x06, 0x07, 0x11, 0x12, 0x13] ∨ 0x26 ≤ i.toNat) :
    readReg i s = 0 := by
  rw [readReg]
  rcases h with hgap | hpast
  · simp only [List.mem_cons, List.not_mem_nil, or_false] at hgap
    obtain h | h | h | h | h := hgap <;> rw [h] <;> rfl
  · exact List.getD_eq_default _ _ hpast

/-- Settles O13: a read only appends to `readLog`, and no register's value depends on the pending turns. -/
theorem hostReadReturnsValueWithoutEffect : Obligations.HostReadReturnsValueWithoutEffect := by
  unfold Obligations.HostReadReturnsValueWithoutEffect
  exact fun s i rest hturns => ⟨step_rd hturns, readReg_reserved s⟩

end Sys2Proof.Machine
end

section
/-! How a command ends (60_exceptions.md R300 to R306): the codes its precheck can give, the events its commit raises, and the
code and events of each way its step can go. -/

namespace Sys2Proof.Machine

/-! ### Codes -/

/-- Every error but TRANSPORT sets CMD_ERR (60_exceptions.md R300). -/
theorem ErrCode.event_of_ne {e : ErrCode} (hok : e ≠ .ok) (htransport : e ≠ .transport) : e.event = 0x200 := by
  cases e with
  | ok => exact absurd rfl hok
  | transport => exact absurd rfl htransport
  | illegal | notInit | envRange | noClimate => rfl

/-- The gas precheck knows NOT_INIT alone. -/
theorem gasPrecheck_mem (s : State) : gasPrecheck s ∈ [ErrCode.ok, .notInit] := by
  unfold gasPrecheck
  split <;> decide

/-- A compensation command's precheck gives a code listed for it; GAS.COMP's operands always encode, so it never gives
ENV_RANGE (43_gas_commands.md R239). -/
theorem compPrecheck_mem (src : EnvSource) (s : State) :
    compPrecheck src s ∈ (mayEndWith src.command).erase .transport := by
  cases src with
  | default =>
    have henc : encEnv s.params.roundTies (envOperands .default s).1 (envOperands .default s).2 ≠ none :=
      (encEnv_default s.params.roundTies).trans_ne nofun
    rw [compPrecheck_of_ne_climate (src := .default) nofun, if_neg henc]
    split <;> decide
  | operands =>
    rw [compPrecheck_of_ne_climate (src := .operands) nofun]
    split_ifs <;> decide
  | climate =>
    rw [compPrecheck_climate]
    split_ifs <;> decide

/-- A precheck gives a code listed for its command, and never TRANSPORT, which only a transaction can give
(60_exceptions.md R302). -/
theorem precheckOf_mem (i : Instr) (s : State) : precheckOf i s ∈ (mayEndWith i).erase .transport := by
  cases i with
  | nop | climInit | gasInit => exact .head _
  | climSample =>
    rw [precheckOf, climSamplePrecheck]
    split <;> decide
  | gasReady | gasUpdate | gasSample => exact gasPrecheck_mem s
  | gasComp => exact compPrecheck_mem .default s
  | gasCompOpnd => exact compPrecheck_mem .operands s
  | gasCompClim => exact compPrecheck_mem .climate s

/-- No precheck gives TRANSPORT. -/
theorem precheckOf_ne_transport (i : Instr) (s : State) : precheckOf i s ≠ .transport := by
  have hlisted : ErrCode.transport ∉ (mayEndWith i).erase .transport := by cases i <;> decide
  exact fun h => hlisted (h ▸ precheckOf_mem i s)

/-- The command can end with its precheck's code. -/
theorem precheckOf_mem_mayEndWith (i : Instr) (s : State) : precheckOf i s ∈ mayEndWith i :=
  List.mem_of_mem_erase (precheckOf_mem i s)

/-- Every command can end with OK. -/
theorem ok_mem_mayEndWith (i : Instr) : .ok ∈ mayEndWith i := by
  cases i <;> decide

/-- A command with a transaction can end with TRANSPORT: all but NOP (60_exceptions.md R302). -/
theorem transport_mem_mayEndWith {i : Instr} {s : State} {x : Transaction} (h : nextTxnOf i s = some x) :
    .transport ∈ mayEndWith i := by
  cases i
  case nop => cases h
  all_goals decide

/-- The whole state after a failing precheck (60_exceptions.md R300). -/
theorem raiseErr_precheckOf {i : Instr} {s : State} (h : precheckOf i s ≠ .ok) :
    raiseErr (precheckOf i s) s =
      { s with err := precheckOf i s, done := true, events := s.events ||| 0x200,
               seq := { s.seq with phase := .idle } } := by
  rw [raiseErr_eq, ErrCode.event_of_ne h (precheckOf_ne_transport i s)]

/-- Settles O19: the template with a failing precheck. -/
theorem precheckErrorEndsCommand : Obligations.PrecheckErrorEndsCommand := by
  unfold Obligations.PrecheckErrorEndsCommand
  intro i s h
  rw [exec_eq_advance, advance_error h, raiseErr_precheckOf h]

/-! ### Events -/

/-- The pressure path raises P_SKIP, P_DIVGUARD or nothing (60_exceptions.md R311). -/
theorem pressureEvent_mem (p : Option (Option Word)) : pressureEvent p ∈ [0, evPSkip, evPDivGuard] := by
  match p with
  | none => decide
  | some none => decide
  | some (some _) => exact .head _

/-- Humidity compensation raises at most one event (41_compensation.md R179). -/
theorem HumEvent.bit_mem (h : HumEvent) : h.bit ∈ [0, evHDivGuard, evHClampHi, evHClampLo] := by
  cases h <;> decide

/-- An update raises GAS_NO_DATA, or the rejections of the two readings (43_gas_commands.md R246, R248). -/
theorem updateEffects_events_mem (s : State) :
    (updateEffects s).events ∈ [evGasNoData, 0, evEco2Reject, evTvocReject, evEco2Reject ||| evTvocReject] := by
  have hdata : ∀ eco2Accepted tvocAccepted : Bool,
      (if eco2Accepted then 0 else evEco2Reject) ||| (if tvocAccepted then 0 else evTvocReject) ∈
        [evGasNoData, 0, evEco2Reject, evTvocReject, evEco2Reject ||| evTvocReject] := by decide
  unfold updateEffects
  split
  · exact hdata _ _
  · exact .head _

/-- A commit raises one of the sets of events listed for its command (60_exceptions.md R306). -/
theorem effectsOf_events_mem_mayRaise (i : Instr) (s : State) : (effectsOf i s).events ∈ mayRaise i := by
  cases i with
  | climSample => exact List.mem_flatMap.2 ⟨_, pressureEvent_mem _, List.mem_map.2 ⟨_, HumEvent.bit_mem _, rfl⟩⟩
  | gasUpdate | gasSample => exact updateEffects_events_mem s
  | nop | climInit | gasInit | gasReady | gasComp | gasCompOpnd | gasCompClim => exact .head _

/-- Settles O26: the code and the events of each way a command's step can go. -/
theorem commandsEndWithListedCodesAndEvents : Obligations.CommandsEndWithListedCodesAndEvents := by
  unfold Obligations.CommandsEndWithListedCodesAndEvents
  intro i s t hrun h
  rcases exec_cases i s with ⟨hp, e⟩ | ⟨-, -, e⟩ | ⟨x, -, hx, -, e⟩ | ⟨x, b, -, -, -, -, e⟩ <;> rw [h] at e <;> cases e
  case inl =>
    rw [raiseErr_precheckOf hp]
    exact ⟨fun _ => precheckOf_mem_mayEndWith i s, nofun, fun _ hok => absurd hok hp,
      fun _ htransport => absurd htransport (precheckOf_ne_transport i s), fun _ _ _ => rfl⟩
  case inr.inl =>
    rw [complete_ok_eq]
    exact ⟨fun _ => ok_mem_mayEndWith i, nofun, fun _ _ => ⟨_, effectsOf_events_mem_mayRaise i s, rfl⟩, nofun,
      fun _ hne => absurd rfl hne⟩
  case inr.inr.inl =>
    rw [raiseErr_eq]
    exact ⟨fun _ => transport_mem_mayEndWith hx, nofun, nofun, fun _ _ => rfl, fun _ _ hne => absurd rfl hne⟩
  case inr.inr.inr =>
    have hbusy : s.seq.phase ≠ .idle := by rw [hrun]; decide
    exact ⟨fun hidle => absurd hidle hbusy, fun _ => ⟨rfl, rfl, rfl⟩, fun hidle => absurd hidle hbusy,
      fun hidle => absurd hidle hbusy, fun hidle => absurd hidle hbusy⟩

end Sys2Proof.Machine
end

section
/-! Waiting, reset and the end of every command (70_reset_and_hazards.md R340 to R343, R356, R357): the step of a state by the turn
it has pending, and the run of a command that is left alone. -/

namespace Sys2Proof.Machine

section
variable {s t : State} {rest : List Turn}

/-! ### Waiting -/

/-- With no turn pending the sequencer moves. -/
theorem step_of_alone (h : s.env.turns = []) : step s = runSequencer s := by
  have hview : s.sequencerView = some s := by rw [State.sequencerView, h]
  exact step_sequencer hview

/-- A `sequencer` turn is used up as the sequencer moves. -/
theorem step_sequencerTurn (h : s.env.turns = .sequencer :: rest) :
    step s = runSequencer { s with env := { s.env with turns := rest } } := by
  have hview : s.sequencerView = some s.nextTurn := by rw [State.sequencerView, h]
  rw [step_sequencer hview, State.nextTurn_of_turns h]

/-- A host's WAIT ends in IDLE (30_encoding.md R111). -/
theorem step_wait_of_idle (hidle : s.seq.phase = .idle) (h : s.env.turns = .wait :: rest) :
    step s = .next { s with env := { s.env with turns := rest } } := by
  have hview : s.sequencerView = none := by simp [State.sequencerView, h, State.busy_eq, hidle]
  rw [step_outside hview, outsideTurn, h, State.nextTurn_of_turns h]

/-- While RUN the sequencer moves under a host's WAIT. -/
theorem step_wait_of_run (hrun : s.seq.phase = .run) (h : s.env.turns = .wait :: rest) : step s = runSequencer s := by
  have hview : s.sequencerView = some s := by simp [State.sequencerView, h, State.busy_eq, hrun]
  exact step_sequencer hview

/-- The sequencer uses up no turn. -/
theorem runSequencer_turns (h : runSequencer s = .next t) : t.env.turns = s.env.turns := by
  cases hp : s.seq.phase with
  | idle =>
    cases (runSequencer_idle hp).symm.trans h
    rfl
  | run =>
    cases hd : decode s.seq.cmd with
    | ok i =>
      obtain ⟨-, -, -, -, -, -, -, -, -, hturns, -⟩ := exec_frame ((runSequencer_run hp hd).symm.trans h)
      exact hturns
    | error r =>
      cases (runSequencer_illegal hp hd).symm.trans h
      rfl

/-! ### The reset input -/

/-- The reset input is one step, whatever runs (70_reset_and_hazards.md R340). -/
theorem step_reset {f : Bool} (h : s.env.turns = .reset f :: rest) :
    step s = .next (resetInput f { s with env := { s.env with turns := rest } }) := by
  have hview : s.sequencerView = none := by rw [State.sequencerView, h]
  rw [step_outside hview, outsideTurn, h, State.nextTurn_of_turns h]

/-- The transaction a command waits for does not depend on the surroundings. -/
theorem pendingTxn_env (s : State) (v : Environment) : pendingTxn { s with env := v } = pendingTxn s := rfl

/-! ### The end of a command -/

/-- No schedule has more than six transactions (30_encoding.md R100). -/
theorem scheduleOf_length_le (i : Instr) (s : State) : (scheduleOf i s).length ≤ 6 := by
  have hlens : (replyLens i).length ≤ 6 := by cases i <;> decide
  have hprefix := (scheduleOf_replyLens i s).length_le
  rw [List.length_map] at hprefix
  exact hprefix.trans hlens

/-- A transaction is due before step 6 only. -/
theorem step_lt_six_of_nextTxnOf {i : Instr} {x : Transaction} (h : nextTxnOf i s = some x) : s.seq.step < 6 :=
  (List.getElem?_eq_some_iff.1 h).1.trans_le (scheduleOf_length_le i s)

/-- A running command left alone ends with this step, or makes one of its six transactions. -/
theorem step_of_running_alone (hrun : s.seq.phase = .run) (halone : s.env.turns = []) :
    ∃ t, step s = .next t ∧
      ((t.seq.phase = .idle ∧ t.done = true ∧ t.env.busLog.length ≤ s.env.busLog.length + (6 - s.seq.step)) ∨
       (t.seq.phase = .run ∧ t.env.turns = [] ∧ s.seq.step < 6 ∧ t.seq.step = s.seq.step + 1 ∧
        t.env.busLog.length = s.env.busLog.length + 1)) := by
  rw [step_of_alone halone]
  cases hd : decode s.seq.cmd with
  | error r => exact ⟨_, runSequencer_illegal hrun hd, .inl ⟨rfl, rfl, Nat.le_add_right _ _⟩⟩
  | ok i =>
    rw [runSequencer_run hrun hd]
    rcases exec_cases i s with ⟨-, e⟩ | ⟨-, -, e⟩ | ⟨x, -, hx, -, e⟩ | ⟨x, b, -, hx, -, -, e⟩
    · exact ⟨_, e, .inl ⟨rfl, rfl, Nat.le_add_right _ _⟩⟩
    · exact ⟨_, e, .inl ⟨rfl, rfl, Nat.le_add_right _ _⟩⟩
    · have hstep := step_lt_six_of_nextTxnOf hx
      refine ⟨_, e, .inl ⟨rfl, rfl, ?_⟩⟩
      rw [raiseErr_env, State.logBus_env, List.length_append, List.length_singleton]
      omega
    · exact ⟨_, e, .inr ⟨hrun, halone, step_lt_six_of_nextTxnOf hx, rfl, List.length_append⟩⟩

end

/-- Within `k` steps the machine is IDLE with DONE = 1, after at most `n` more bus transactions. -/
def EndsWithin (k n : Nat) (s : State) : Prop :=
  ∃ j ≤ k, ∃ t : State,
    Host.Core.run Sys2Proof.core j s = .next t ∧ t.seq.phase = .idle ∧ t.done = true ∧
    t.env.busLog.length ≤ s.env.busLog.length + n

/-- A running command left alone ends within one step more than the transactions it may still make. -/
theorem endsWithin_of_running_alone {s : State} (hrun : s.seq.phase = .run) (halone : s.env.turns = []) :
    EndsWithin (6 - s.seq.step + 1) (6 - s.seq.step) s := by
  obtain ⟨t, hstep, ⟨hidle, hdone, hbus⟩ | ⟨hrun', halone', hlt, hnext, hbus⟩⟩ := step_of_running_alone hrun halone
  · exact ⟨1, Nat.le_add_left 1 _, t, run_succ hstep 0, hidle, hdone, hbus⟩
  · obtain ⟨j, hj, u, hu, hidle, hdone, hlog⟩ := endsWithin_of_running_alone hrun' halone'
    exact ⟨j + 1, by omega, u, (run_succ hstep j).trans hu, hidle, hdone, by omega⟩
termination_by 6 - s.seq.step
decreasing_by omega

/-! ### The obligations -/

/-- Settles O6: the bound of `endsWithin_of_running_alone` is largest where no transaction is made yet. -/
theorem commandEndsWithinSevenSteps : Obligations.CommandEndsWithinSevenSteps := by
  unfold Obligations.CommandEndsWithinSevenSteps
  intro s hrun halone
  obtain ⟨k, hk, t, ht, hidle, hdone, hbus⟩ := endsWithin_of_running_alone hrun halone
  exact ⟨k, by omega, t, ht, hidle, hdone, by omega⟩

/-- Settles O17: the two things the reset input can do, with or without a transaction on the port. -/
theorem resetInputAbandonsRunningCommand : Obligations.ResetInputAbandonsRunningCommand := by
  unfold Obligations.ResetInputAbandonsRunningCommand
  intro s f rest hturns
  refine ⟨_, step_reset hturns, ?_⟩
  rcases resetInput_cases f { s with env := { s.env with turns := rest } } with ⟨x, hf, hx, e⟩ | ⟨hnone, e⟩ <;> rw [e]
  · rw [pendingTxn_env] at hx
    refine ⟨rfl, rfl, rfl, fun _ y hy => ?onPort, fun hnone => ?notOnPort⟩
    case onPort =>
      cases hx.symm.trans hy
      exact ⟨rfl, rfl⟩
    case notOnPort => simp [hf, hx] at hnone
  · rw [pendingTxn_env] at hnone
    exact ⟨rfl, rfl, rfl, fun hf x hx => by simp [hf, hx] at hnone, fun _ => rfl⟩

/-- Settles O60: whose turn it is, and the sequencer's step in that phase. -/
theorem idleMachineWaits : Obligations.IdleMachineWaits := by
  unfold Obligations.IdleMachineWaits
  refine fun s rest => ⟨fun hidle hturns => ?alone, fun hidle hturns => ?used, fun hrun hturns => ?stays⟩
  case alone => rw [step_of_alone hturns, runSequencer_idle hidle]
  case used =>
    rcases hturns with hturns | hturns
    · rw [step_sequencerTurn hturns]
      exact runSequencer_idle hidle
    · exact step_wait_of_idle hidle hturns
  case stays =>
    rw [step_wait_of_run hrun hturns]
    exact ⟨rfl, fun t ht => (runSequencer_turns ht).trans hturns⟩

end Sys2Proof.Machine
end
